-- ==== Sys2Proof/Word.lean ====
section
/-! DEFINITION. The two plain values of the block: a stored byte and a command code
(00_scope.md section 3: data width 8 bits; 30_encoding.md R61: one 8-bit code `cc[7:0]`).
Nothing in the block is wider, signed or computed on (R74, R101); indices and counts are naturals
(92_eei_decisions.md D2, log 2). -/

namespace Sys2Proof

/-- One stored element of a buffer, and one datum of the peripheral (00_scope.md section 3, R74). -/
abbrev Byte := BitVec 8

/-- A command code `cc[7:0]`, bit 0 the least significant (30_encoding.md R61). -/
abbrev Code := BitVec 8

end Sys2Proof
end

