-- ==== Sys2Proof/Syntax.lean ====
section
/-! DEFINITION. The operation set of 30_encoding.md R60: one constructor of `Instr` per row of
spec/opcode_table.json, the operands of R65 as typed fields, the agents of 20_memory.md R50, and the
command (code and operands beside it) that an agent presents. -/

namespace Sys2Proof

/-- The two buffer instances: `IN` (inbound) and `OUT` (outbound) (00_scope.md R1, 10_state.md R10). -/
inductive Inst where
  | inbound
  | outbound
  deriving DecidableEq, Repr

/-- The agents that issue operations (20_memory.md R50). The fourth agent, `PER`, issues no code:
its moves are the environment events of the input tape (60_exceptions.md R160). -/
inductive Agent where
  /-- `FG`, the foreground; it is also the test agent of a buffer exercised alone (R50). -/
  | fg
  /-- `RXI`, the inbound interrupt path. -/
  | rxi
  /-- `TXI`, the outbound interrupt path. -/
  | txi
  deriving DecidableEq, Repr

/-- The eleven operations (R60), each with the operands R65 gives it. `RXIRQ` has no operand field:
its pair `(b, e)` is sampled from `rx_data` and `rx_err` at RX1 (R131; log 9). -/
inductive Instr where
  /-- `INIT.f` (40_buffer_ops.md R81). -/
  | init (f : Inst)
  /-- `ENQ.f av payload` (R86). -/
  | enq (f : Inst) (av : Bool) (payload : List Byte)
  /-- `DEQ.f av max_count` (R92). -/
  | deq (f : Inst) (av : Bool) (maxCount : Nat)
  /-- `EMPTY.f` (R95). -/
  | empty (f : Inst)
  /-- `FULL.f` (R96). -/
  | full (f : Inst)
  /-- `LEN.f` (R97). -/
  | len (f : Inst)
  /-- `TINIT` (41_transport_foreground.md R111). -/
  | tinit
  /-- `WRITE av payload` (R114). -/
  | write (av : Bool) (payload : List Byte)
  /-- `READ1` (R118). -/
  | read1
  /-- `RXIRQ` (42_transport_interrupt.md R131). -/
  | rxirq
  /-- `TXIRQ` (R134). -/
  | txirq
  deriving DecidableEq, Repr

/-- The operands presented beside a code (R65): `av`, `payload` and `max_count`. Every one is present
on the port; an operation uses those R65 gives it. -/
structure Operands where
  /-- Argument valid; `false` stands for the source's null argument. -/
  av : Bool
  /-- The bytes of `ENQ` and `WRITE`; `payload[0]` is enqueued first. -/
  payload : List Byte
  /-- The upper bound of `DEQ`. -/
  maxCount : Nat
  deriving DecidableEq, Repr

/-- Operands all of whose bits are zero. -/
def Operands.zero : Operands := { av := false, payload := [], maxCount := 0 }

/-- What an agent presents: the code and the operands beside it (R65). -/
structure Command where
  cc : Code
  ops : Operands
  deriving DecidableEq, Repr

/-- The pseudo-operation `ENQ1.f b`, short for `ENQ.f [b]` in a test program (R70). -/
def Instr.enq1 (f : Inst) (b : Byte) : Instr := .enq f true [b]

/-- The pseudo-operation `DEQ1.f`, short for `DEQ.f 1` in a test program (R70). -/
def Instr.deq1 (f : Inst) : Instr := .deq f true 1

/-! ## Spelling (R69) -/

/-- One hexadecimal digit, capital letters. -/
def hexDigit (n : Nat) : String :=
  ["0", "1", "2", "3", "4", "5", "6", "7", "8", "9", "A", "B", "C", "D", "E", "F"].getD n ""

/-- A byte as R69 writes it, `0x6F`. -/
def spellByte (b : Byte) : String := "0x" ++ hexDigit (b.toNat / 16) ++ hexDigit (b.toNat % 16)

/-- A payload as R69 writes it, `[b0 b1 ...]`, or `null` for `av = 0`. -/
def spellPayload (av : Bool) (payload : List Byte) : String :=
  if av then "[" ++ " ".intercalate (payload.map spellByte) ++ "]" else "null"

/-- The suffix `.IN` or `.OUT` of a format B mnemonic. -/
def Inst.suffix : Inst → String
  | .inbound => ".IN"
  | .outbound => ".OUT"

/-- The spec's assembly-like spelling of an operation (R69). The pair of `RXIRQ b, e` is the peripheral's
presentation, which stands apart from the activation in the model (log 9). -/
def Instr.spell : Instr → String
  | .init f => "INIT" ++ f.suffix
  | .enq f av payload => "ENQ" ++ f.suffix ++ " " ++ spellPayload av payload
  | .deq f av maxCount => "DEQ" ++ f.suffix ++ " " ++ (if av then toString maxCount else "null")
  | .empty f => "EMPTY" ++ f.suffix
  | .full f => "FULL" ++ f.suffix
  | .len f => "LEN" ++ f.suffix
  | .tinit => "TINIT"
  | .write av payload => "WRITE " ++ spellPayload av payload
  | .read1 => "READ1"
  | .rxirq => "RXIRQ"
  | .txirq => "TXIRQ"

/-- The agent that R68 lets issue the operation at the top level (for the observers, which every
agent may call, the foreground). -/
def Instr.usualAgent : Instr → Agent
  | .rxirq => .rxi
  | .txirq => .txi
  | .init _ => .fg
  | .enq _ _ _ => .fg
  | .deq _ _ _ => .fg
  | .empty _ => .fg
  | .full _ => .fg
  | .len _ => .fg
  | .tinit => .fg
  | .write _ _ => .fg
  | .read1 => .fg

end Sys2Proof
end

