-- ==== Sys2Proof/WellFormed.lean ====
section
/-! DEFINITION. When a command is well formed: the three conditions of 30_encoding.md R62 and R67 on
its code, written as masks of the whole byte, apart from the decoder's own field extraction. Every
term of `Instr` is a legal operation (its operands are typed: `av` one bit, `payload` any finite byte
sequence, `max_count` any natural, R65, D25), so the checks are about the code presented. -/

namespace Sys2Proof

/-- Field `RSV` (bits 7:5) is 000 (R62). -/
def Command.rsvZero (c : Command) : Bool := c.cc &&& 0xE0#8 == 0#8

/-- Field `OP` (bits 3:0) is one of 0x0..0x5 (format B) or 0x8..0xC (formats T and E) (R61, R64). -/
def Command.opAssigned (c : Command) : Bool :=
  let op := c.cc &&& 0x0F#8
  decide (op ≤ 0x05#8) || (decide (0x08#8 ≤ op) && decide (op ≤ 0x0C#8))

/-- Bit 4 is 0 unless the format is B (R62). -/
def Command.selAllowed (c : Command) : Bool :=
  c.cc &&& 0x10#8 == 0#8 || decide (c.cc &&& 0x0F#8 ≤ 0x05#8)

/-- The code selects an operation: it is none of the 239 reserved codes (R67). -/
def Command.wellFormed (c : Command) : Bool := c.rsvZero && c.opAssigned && c.selAllowed

end Sys2Proof
end

