-- ==== Sys2Proof/Decode.lean ====
section
/-! DEFINITION. The decoder of 30_encoding.md R64 ("Decoding procedure"), total on every command and
refusing the reserved codes of R67 by name, and the encoder, written from the table of R64. -/

namespace Sys2Proof

/-- Why a code is reserved (R67). -/
inductive DecodeError where
  /-- `RSV` (bits 7:5) is not 000. -/
  | rsvNotZero
  /-- `OP` is one of 0x6, 0x7, 0xD, 0xE, 0xF. -/
  | opUnassigned
  /-- Bit 4 is 1 with an operation of format T or E. -/
  | selNotZero
  deriving DecidableEq, Repr

/-- What the decoder answers. -/
inductive Decoded where
  | instr (i : Instr)
  | reserved (why : DecodeError)
  deriving DecidableEq, Repr

/-- The instruction decoded, if there is one. -/
def Decoded.toOption : Decoded → Option Instr
  | .instr i => some i
  | .reserved _ => none

/-- Field `OP`, bits 3:0 (R61). -/
def opField (cc : Code) : Nat := cc.toNat % 16

/-- Field `SEL`, bit 4 (R62). -/
def selField (cc : Code) : Bool := cc.toNat / 16 % 2 == 1

/-- Field `RSV`, bits 7:5 (R61). -/
def rsvField (cc : Code) : Nat := cc.toNat / 32

/-- `SEL` = 0 selects `IN`, 1 selects `OUT` (R62). -/
def instOfSel (sel : Bool) : Inst := if sel then .outbound else .inbound

/-- A format T or E code: bit 4 must be 0 (R62). -/
def decodeImplied (cc : Code) (i : Instr) : Decoded :=
  if selField cc then .reserved .selNotZero else .instr i

/-- The decoding procedure of R64. -/
def decode (c : Command) : Decoded :=
  let f := instOfSel (selField c.cc)
  if rsvField c.cc ≠ 0 then .reserved .rsvNotZero
  else match opField c.cc with
    | 0x0 => .instr (.init f)
    | 0x1 => .instr (.enq f c.ops.av c.ops.payload)
    | 0x2 => .instr (.deq f c.ops.av c.ops.maxCount)
    | 0x3 => .instr (.empty f)
    | 0x4 => .instr (.full f)
    | 0x5 => .instr (.len f)
    | 0x8 => decodeImplied c.cc .tinit
    | 0x9 => decodeImplied c.cc (.write c.ops.av c.ops.payload)
    | 0xA => decodeImplied c.cc .read1
    | 0xB => decodeImplied c.cc .rxirq
    | 0xC => decodeImplied c.cc .txirq
    | _ => .reserved .opUnassigned

/-- The code of a format B operation: `OP` with `SEL` in bit 4 (R61, R64). -/
def codeB (op : Code) : Inst → Code
  | .inbound => op
  | .outbound => op ||| 0x10#8

/-- The code of each operation (R64's table). -/
def codeOf : Instr → Code
  | .init f => codeB 0x00#8 f
  | .enq f _ _ => codeB 0x01#8 f
  | .deq f _ _ => codeB 0x02#8 f
  | .empty f => codeB 0x03#8 f
  | .full f => codeB 0x04#8 f
  | .len f => codeB 0x05#8 f
  | .tinit => 0x08#8
  | .write _ _ => 0x09#8
  | .read1 => 0x0A#8
  | .rxirq => 0x0B#8
  | .txirq => 0x0C#8

/-- The operands an operation takes, zero where it takes none (R65). -/
def operandsOf : Instr → Operands
  | .enq _ av payload => { av := av, payload := payload, maxCount := 0 }
  | .deq _ av maxCount => { av := av, payload := [], maxCount := maxCount }
  | .write av payload => { av := av, payload := payload, maxCount := 0 }
  | .init _ => .zero
  | .empty _ => .zero
  | .full _ => .zero
  | .len _ => .zero
  | .tinit => .zero
  | .read1 => .zero
  | .rxirq => .zero
  | .txirq => .zero

/-- The command that presents an operation (R64, R65). -/
def encode (i : Instr) : Command := { cc := codeOf i, ops := operandsOf i }

/-- A code with operands of zeros beside it, given as the number of its bits. -/
def tableCommand (w : Nat) : Command := { cc := BitVec.ofNat 8 w, ops := .zero }

/-- The instruction the decoder reads from a row's word: there is one length, 8 bits (R61), and the
operands, which no bit of the table's word carries (R65), are zeros. -/
def decodeTableWord (nbits w : Nat) : Option Instr :=
  if nbits = 8 then (decode (tableCommand w)).toOption else none

/-- `match` and `mask` of the operation's row of the opcode map (R64): a code belongs to the row when
its masked bits are the match. -/
def rowOf : Instr → Code × Code
  | .init _ => (0x00#8, 0xEF#8)
  | .enq _ _ _ => (0x01#8, 0xEF#8)
  | .deq _ _ _ => (0x02#8, 0xEF#8)
  | .empty _ => (0x03#8, 0xEF#8)
  | .full _ => (0x04#8, 0xEF#8)
  | .len _ => (0x05#8, 0xEF#8)
  | .tinit => (0x08#8, 0xFF#8)
  | .write _ _ => (0x09#8, 0xFF#8)
  | .read1 => (0x0A#8, 0xFF#8)
  | .rxirq => (0x0B#8, 0xFF#8)
  | .txirq => (0x0C#8, 0xFF#8)

end Sys2Proof
end

