-- ==== Sys2Proof/Config.lean ====
section
/-! DEFINITION. What the implementation fixes (00_scope.md section 3) and the one free value of the
model. -/

namespace Sys2Proof

/-- `K`, log2 of the capacity, of both instances of this hardware: C = 2^8 = 256 (00_scope.md R5). -/
def Config.capacityLog2 : Nat := 8

/-- FREE VALUE (log 5). The byte a slot holds since power-on when no `ENQ1` has written it: "any value"
(93_implementation_defined.md U10; 10_state.md R33). It has no body: nothing can be proved of it. -/
opaque Config.powerOnByte : Inst → Nat → Byte

end Sys2Proof
end

