-- ==== Sys2Proof/Machine/State.lean ====
section
/-! DEFINITION. The state of the block as plain data (10_state.md): two buffers, the peripheral's
signals, the in-flight records of the agents, the boot flags, and the input tape that says who moves
next; the reasons a step can stop; and the state right after power-on. -/

namespace Sys2Proof.Machine

/-! ## One buffer instance -/

/-- The attributes of a Circular Byte Buffer (10_state.md R10 to R15), with the capacity exponent it
was constructed with (00_scope.md R5). Indices and count are naturals; that they stay in the widths
K, K and K+1 is an invariant, not a truncation (92_eei_decisions.md D2; log 2). -/
structure Buffer where
  /-- `K`: the capacity is `C = 2^K`, fixed at construction (R5; log 1). No operation changes it. -/
  k : Nat
  /-- `f.mem`: the slots written so far, as slot and byte, slots strictly rising (R11; log 5). -/
  mem : List Host.Cell
  /-- `f.widx`, the slot the next accepted byte goes to (R12). -/
  widx : Nat
  /-- `f.ridx`, the slot the next removed byte comes from (R13). -/
  ridx : Nat
  /-- `f.count`, the number of occupied slots (R14). -/
  count : Nat
  /-- `f.full`, the stored flag that no operation reads (R15). -/
  full : Bool
  deriving DecidableEq, Repr

/-- `C = 2^K` (R5). -/
def Buffer.cap (b : Buffer) : Nat := 2 ^ b.k

/-- A buffer of capacity `2^k` at power-on: no slot written; the register values are the model's
DESIGN CHOICE (log 3), the source gives none (R32). -/
def Buffer.powerOn (k : Nat) : Buffer :=
  { k := k, mem := [], widx := 0, ridx := 0, count := 0, full := false }

/-! ## The peripheral's signals -/

/-- The signals of the boundary with `PER` (10_state.md R26 to R28). `txIrqEn` IS "transmit active":
there is no second copy of it (R25). -/
structure Peripheral where
  rxReady : Bool
  rxData : Byte
  rxErr : Bool
  txEmpty : Bool
  txData : Byte
  txIrqEn : Bool
  deriving DecidableEq, Repr

/-- The signals at power-on: unspecified in the source (R34); all zero by DESIGN CHOICE (log 4). -/
def Peripheral.powerOn : Peripheral :=
  { rxReady := false, rxData := 0#8, rxErr := false, txEmpty := false, txData := 0#8, txIrqEn := false }

/-! ## Results -/

/-- `status` of `WRITE` (30_encoding.md R66). -/
inductive Status where
  | ok
  | fail
  deriving DecidableEq, Repr

/-- The value an operation returns (R66). -/
inductive Result where
  /-- `INIT`, `TINIT`, `RXIRQ`, `TXIRQ` return nothing. -/
  | nothing
  /-- `ENQ`: how many bytes were accepted. -/
  | accepted (n : Nat)
  /-- `DEQ`: the bytes in removal order, and how many. -/
  | removed (bytes : List Byte) (returned : Nat)
  /-- `EMPTY`, `FULL`. -/
  | bool (b : Bool)
  /-- `LEN`. -/
  | count (n : Nat)
  /-- `WRITE`. -/
  | status (s : Status)
  /-- `READ1`: `none` or `some(byte)`. -/
  | byte (b : Option Byte)
  deriving DecidableEq, Repr

/-! ## In-flight records (10_state.md R29)

A position names the micro-step that comes NEXT, by its number in the spec's pseudocode. -/

/-- Where `INIT` stands (40_buffer_ops.md R81). -/
inductive InitPos where
  | i1
  | i2
  | i3
  | i4
  deriving DecidableEq, Repr

/-- Where `ENQ` stands (R86); its line Q3 is the call of `ENQ1`, whose micro-steps are `e0` to `e4`
(R84). `e0` and `e1` hold the byte `ENQ1` was called with; `q4` holds whether it stopped. -/
inductive EnqPos where
  | q0
  | q1
  | q2
  | e0 (b : Byte)
  | e1 (b : Byte)
  | e2
  | e3
  | e4
  | q4 (stopped : Bool)
  | q5
  | q6
  deriving DecidableEq, Repr

/-- Progress of an `ENQ`: the cursor `i` (bytes accepted so far) and the position. -/
structure EnqRun where
  accepted : Nat
  pos : EnqPos
  deriving DecidableEq, Repr

/-- Where `DEQ` stands (R92); its line P3 is the call of `DEQ1`, whose micro-steps are `d0` to `d4`
(R90). From `d2` on the position holds the byte read at D1; `p4` holds what `DEQ1` returned. -/
inductive DeqPos where
  | p0
  | p1
  | p2
  | d0
  | d1
  | d2 (b : Byte)
  | d3 (b : Byte)
  | d4 (b : Byte)
  | p4 (r : Option Byte)
  | p5 (b : Byte)
  | p6
  | p7
  deriving DecidableEq, Repr

/-- Progress of a `DEQ`: the bytes removed so far and the position. The cursor `i` of R92 is the length
of `out` wherever R92 reads it, so it is not stored again (log 17). -/
structure DeqRun where
  out : List Byte
  pos : DeqPos
  deriving DecidableEq, Repr

/-- Where `TINIT` stands (41_transport_foreground.md R111). -/
inductive TinitPos where
  | t1 (p : InitPos)
  | t2 (p : InitPos)
  | t3
  | t4
  deriving DecidableEq, Repr

/-- Where `WRITE` stands (R114); `w1` is its wait. -/
inductive WritePos where
  | w0
  | w1
  | w2 (r : EnqRun)
  | w3
  | w4
  | w5
  deriving DecidableEq, Repr

/-- Where `READ1` stands (R118). -/
inductive ReadPos where
  | x1 (r : DeqRun)
  | x2 (bytes : List Byte)
  | x3 (b : Byte)
  deriving DecidableEq, Repr

/-- Where `RXIRQ` stands (42_transport_interrupt.md R131), with the pair `(b, e)` sampled at RX1 as
long as it is needed. -/
inductive RxPos where
  | rx1
  | rx2 (b : Byte) (e : Bool)
  | rx3
  | rx4
  | rx5 (b : Byte)
  | rx6 (b : Byte) (r : EnqRun)
  | rx7
  deriving DecidableEq, Repr

/-- Where `TXIRQ` stands (R134). -/
inductive TxPos where
  | tx1 (r : DeqRun)
  | tx2 (bytes : List Byte)
  | tx3 (b : Byte)
  | tx4
  | tx5
  | tx6
  deriving DecidableEq, Repr

/-- An in-flight operation record (R29): the operation, its instance and operands, and its progress. The
observers have none: they are one micro-step, M1, so they are never part-way through (40_buffer_ops.md
R95 to R97; log 13). -/
inductive Op where
  | init (f : Inst) (p : InitPos)
  | enq (f : Inst) (av : Bool) (payload : List Byte) (r : EnqRun)
  | deq (f : Inst) (av : Bool) (maxCount : Nat) (r : DeqRun)
  | tinit (p : TinitPos)
  | write (av : Bool) (payload : List Byte) (p : WritePos)
  | read1 (p : ReadPos)
  | rxirq (p : RxPos)
  | txirq (p : TxPos)
  deriving DecidableEq, Repr

/-- What the model holds of one agent: its in-flight record, at most one (R29), and what the last
operation it finished returned (log 14). -/
structure AgentState where
  inflight : Option Op
  result : Option Result
  deriving DecidableEq, Repr

/-- An agent that has issued nothing yet. -/
def AgentState.idle : AgentState := { inflight := none, result := none }

/-! ## The input tape -/

/-- One move of a run: which agent does what next. The order of moves is the agents' and the
environment's own (30_encoding.md R71 (a), 20_memory.md R51), so it is input, held as data (log 6). -/
inductive Event where
  /-- The agent issues the command and runs it with no other agent's micro-step in between. -/
  | issue (a : Agent) (c : Command)
  /-- The agent issues the command and stands before its first micro-step; an observer, which is one
  micro-step, is over with it. -/
  | start (a : Agent) (c : Command)
  /-- The agent takes the next micro-step of its in-flight operation. -/
  | tick (a : Agent)
  /-- `PER` presents a received byte and its error flag (60_exceptions.md R160 (a)). -/
  | receive (b : Byte) (e : Bool)
  /-- `PER` consumes `tx_data` (R160 (b)). -/
  | transmit
  deriving DecidableEq, Repr

/-! ## The whole state -/

/-- Everything the spec gives the machine (INVENTORY.md, "State"), and the model's bookkeeping. -/
structure State where
  /-- The instance `IN`. -/
  inb : Buffer
  /-- The instance `OUT`. -/
  outb : Buffer
  /-- The peripheral's signals (10_state.md R28). -/
  per : Peripheral
  /-- The foreground's record. -/
  fg : AgentState
  /-- The inbound interrupt path's record. -/
  rxi : AgentState
  /-- The outbound interrupt path's record. -/
  txi : AgentState
  /-- The activations in progress, innermost first (20_memory.md R52, R53; 60_exceptions.md R159). -/
  active : List Agent
  /-- `TINIT` has returned (70_reset_and_hazards.md R181; log 12). -/
  booted : Bool
  /-- `IN` has been initialised (10_state.md R32; log 12). -/
  initIn : Bool
  /-- `OUT` has been initialised (R32; log 12). -/
  initOut : Bool
  /-- The agent that issues the command presented now (30_encoding.md R68; log 6). -/
  issuer : Agent
  /-- The moves still to come (log 6). -/
  todo : List Event
  deriving DecidableEq, Repr

/-- Power-on: nothing initialised, nothing in flight (R34's table), nothing scheduled, both instances of
capacity `2^8` (R5). Register values: log 3; signals: log 4. -/
def State.reset : State :=
  { inb := Buffer.powerOn Config.capacityLog2
    outb := Buffer.powerOn Config.capacityLog2
    per := Peripheral.powerOn
    fg := AgentState.idle
    rxi := AgentState.idle
    txi := AgentState.idle
    active := []
    booted := false
    initIn := false
    initOut := false
    issuer := .fg
    todo := [] }

/-! ## How a step can stop -/

/-- The block raises no exception and signals no fault (60_exceptions.md R150; "`fault` is never used",
93_implementation_defined.md part 1), so there is no fault: nobody raises one. Safe. -/
inductive Fault where
  deriving DecidableEq, Repr

/-- Situations to which the spec gives no meaning: `refuse(reason)` of 00_scope.md section 4 and
60_exceptions.md R152, and moves that no run of the block contains. All are safe: the model stops where
it knows nothing. -/
inductive Refusal where
  /-- An operation without a meaning; raised by no arm of `exec` in this model. Safe. -/
  | notModelled (mnemonic : String)
  /-- A reserved code was presented (30_encoding.md R67); raised where a command is decoded. Safe. -/
  | reservedCode (cc : Code)
  /-- The issuing agent may not issue the operation (R68, 70_reset_and_hazards.md R197). Safe. -/
  | wrongAgent
  /-- An operation or activation before initialisation (10_state.md R32, 70_reset_and_hazards.md R181). Safe. -/
  | notInitialised
  /-- A second `TINIT` (41_transport_foreground.md R111, 92_eei_decisions.md D19). Safe. -/
  | secondTinit
  /-- `INIT.f` where a handler activation that touches `f` could begin: in an assembled transport
  (40_buffer_ops.md R82, D19). Safe. -/
  | bufferInUse
  /-- `ENQ.f` or `DEQ.f` presented from outside in an assembled transport, where they occur only inside
  the transport's own operations (00_scope.md R4, 30_encoding.md R68, 40_buffer_ops.md R87, R93). Safe. -/
  | transportOnly
  /-- The agent has an operation in flight: one at a time, and no path nests in itself
  (20_memory.md R50, R53). Safe. -/
  | agentBusy
  /-- The agent may not move: the foreground while an activation is in progress, or a handler while
  another activation runs inside it (20_memory.md R52, 60_exceptions.md R159). Safe. -/
  | preempted
  /-- A handler issues an observer while none of its activations is in progress: the interrupt context is
  entered by a request being served and by nothing else (60_exceptions.md R161; log 13). Safe. -/
  | outsideActivation
  /-- The agent has no operation in flight to take a micro-step of. Safe. -/
  | nothingInFlight
  /-- An activation without its request: `rx_ready` for `RXIRQ`, `tx_empty` and `tx_irq_en` for `TXIRQ`
  (60_exceptions.md R153, R154). Safe. -/
  | noRequest
  /-- A move `PER` does not have in this state (60_exceptions.md R160 (a), (b)). Safe. -/
  | perNotReady
  deriving DecidableEq, Repr

end Sys2Proof.Machine
end

