-- ==== Sys2Proof/Machine/Flags.lean ====
section
/-! DEFINITION. The conditions and the flag of the block: "empty", "full" and the free space are
functions of the count (10_state.md R16, 40_buffer_ops.md R99); the stored flag is written at E4 and D4
and read by nothing (R15, R85, R91); "transmit active" and the two interrupt requests are read off the
peripheral's signals (10_state.md R25, 60_exceptions.md R153, R154). -/

namespace Sys2Proof.Machine

/-- `is_empty(f)`: true iff count == 0 (10_state.md R16). -/
def Buffer.isEmpty (b : Buffer) : Bool := b.count == 0

/-- `is_full(f)`: true iff count == capacity (R16). It reads the count, not the stored flag (R15). -/
def Buffer.isFull (b : Buffer) : Bool := b.count == b.cap

/-- `FREE.f`, `C - f.count` on naturals (40_buffer_ops.md R99). -/
def Buffer.free (b : Buffer) : Nat := b.cap - b.count

/-- E4: `f.full <- (f.count == C)`, one micro-step (R84, R85). -/
def Buffer.recomputeFull (b : Buffer) : Buffer := { b with full := b.isFull }

/-- D4 (and I4): `f.full <- false` (R81, R90, R91). -/
def Buffer.clearFull (b : Buffer) : Buffer := { b with full := false }

/-- "Transmit active" is `tx_irq_en` (10_state.md R25): Draining when true, Idle when false
(42_transport_interrupt.md R136). -/
def Peripheral.transmitActive (p : Peripheral) : Bool := p.txIrqEn

/-- The receive request: pending while `rx_ready` (60_exceptions.md R153). -/
def Peripheral.rxRequest (p : Peripheral) : Bool := p.rxReady

/-- The transmit request: pending while `tx_empty` and `tx_irq_en` (R154). -/
def Peripheral.txRequest (p : Peripheral) : Bool := p.txEmpty && p.txIrqEn

end Sys2Proof.Machine
end

