-- ==== Sys2Proof/Machine/Ops.lean ====
section
/-! DEFINITION. The named operations over storage, registers, signals and agents. The micro-steps of
INIT, `ENQ1` and `DEQ1` that touch a buffer are here, each once (40_buffer_ops.md R81, R84, R90);
entering and leaving a handler (60_exceptions.md R158, R159) is here too. -/

namespace Sys2Proof.Machine

/-! ## Storage: slots and bytes, slots strictly rising -/

/-- The byte written to a slot, if any has been (10_state.md R11, R33). -/
def memRead : List Host.Cell → Nat → Option Byte
  | [], _ => none
  | (a, v) :: rest, i => if i = a then some v else memRead rest i

/-- The slot takes the byte; every other slot keeps its own (R11; 20_memory.md R43). -/
def memWrite : List Host.Cell → Nat → Byte → List Host.Cell
  | [], i, v => [(i, v)]
  | (a, w) :: rest, i, v =>
    if i < a then (i, v) :: (a, w) :: rest
    else if i = a then (i, v) :: rest
    else (a, w) :: memWrite rest i v

/-- The slots listed are strictly above the bound and strictly rising. -/
def memSortedFrom : Nat → List Host.Cell → Bool
  | _, [] => true
  | lo, (a, _) :: rest => decide (lo ≤ a) && memSortedFrom (a + 1) rest

/-- Canonical form: slots strictly rising. An unlisted slot has no value of its own, so no entry can
equal what an unlisted slot reads as. -/
def memWf (m : List Host.Cell) : Bool := memSortedFrom 0 m

/-- `MemRead(f, i)` (20_memory.md R43): the byte in the slot; for a slot no `ENQ1` has written since
power-on, the free value of the configuration (93_implementation_defined.md U10; log 5). -/
def Buffer.readSlot (f : Inst) (b : Buffer) (i : Nat) : Byte :=
  match memRead b.mem i with
  | some v => v
  | none => Config.powerOnByte f i

/-! ## Registers of one buffer -/

/-- Index advance, `(x + 1) & (C-1)` (10_state.md R21, 40_buffer_ops.md R101). -/
def Buffer.advance (b : Buffer) (x : Nat) : Nat := (x + 1) &&& (b.cap - 1)

/-- I1: `f.widx <- 0` (R81). -/
def Buffer.i1 (b : Buffer) : Buffer := { b with widx := 0 }

/-- I2: `f.ridx <- 0` (R81). -/
def Buffer.i2 (b : Buffer) : Buffer := { b with ridx := 0 }

/-- I3: `f.count <- 0` (R81). -/
def Buffer.i3 (b : Buffer) : Buffer := { b with count := 0 }

/-- I4: `f.full <- false` (R81). -/
def Buffer.i4 (b : Buffer) : Buffer := b.clearFull

/-- E1: `MemWrite(f, f.widx, b)` (R84). -/
def Buffer.e1 (b : Buffer) (x : Byte) : Buffer := { b with mem := memWrite b.mem b.widx x }

/-- E2: `f.widx <- (f.widx + 1) & (C-1)` (R84). -/
def Buffer.e2 (b : Buffer) : Buffer := { b with widx := b.advance b.widx }

/-- E3: `atomic { f.count <- f.count + 1 }`, one indivisible transition (R84; 20_memory.md R46). -/
def Buffer.e3 (b : Buffer) : Buffer := { b with count := b.count + 1 }

/-- E4: `f.full <- (f.count == C)` (R84, R85). -/
def Buffer.e4 (b : Buffer) : Buffer := b.recomputeFull

/-- D1: `b <- MemRead(f, f.ridx)` (R90). -/
def Buffer.d1 (f : Inst) (b : Buffer) : Byte := b.readSlot f b.ridx

/-- D2: `f.ridx <- (f.ridx + 1) & (C-1)` (R90). -/
def Buffer.d2 (b : Buffer) : Buffer := { b with ridx := b.advance b.ridx }

/-- D3: `atomic { f.count <- f.count - 1 }`, one indivisible transition (R90; 20_memory.md R46). -/
def Buffer.d3 (b : Buffer) : Buffer := { b with count := b.count - 1 }

/-- D4: `f.full <- false` (R90, R91). -/
def Buffer.d4 (b : Buffer) : Buffer := b.clearFull

/-! ## The buffers, the agents and the boot flags in the state -/

/-- The instance `f`. -/
def State.buf (s : State) : Inst → Buffer
  | .inbound => s.inb
  | .outbound => s.outb

/-- Replace the instance `f`. -/
def State.setBuf (s : State) (f : Inst) (b : Buffer) : State :=
  match f with
  | .inbound => { s with inb := b }
  | .outbound => { s with outb := b }

/-- The record of an agent. -/
def State.agent (s : State) : Agent → AgentState
  | .fg => s.fg
  | .rxi => s.rxi
  | .txi => s.txi

/-- Replace the record of an agent. -/
def State.setAgent (s : State) (a : Agent) (x : AgentState) : State :=
  match a with
  | .fg => { s with fg := x }
  | .rxi => { s with rxi := x }
  | .txi => { s with txi := x }

/-- Has `f` been initialised (10_state.md R32)? -/
def State.initialised (s : State) : Inst → Bool
  | .inbound => s.initIn
  | .outbound => s.initOut

/-- Record whether `f` is initialised (log 12). -/
def State.setInitialised (s : State) (f : Inst) (v : Bool) : State :=
  match f with
  | .inbound => { s with initIn := v }
  | .outbound => { s with initOut := v }

/-- T4: `TINIT` returns; both instances are initialised, and from here on activations may occur
(41_transport_foreground.md R111; 70_reset_and_hazards.md R181). -/
def State.boot (s : State) : State := { s with booted := true, initIn := true, initOut := true }

/-- The operation of agent `a` is over and returned `r`; the agent has nothing in flight
(10_state.md R29, 30_encoding.md R66; log 14). -/
def State.finish (s : State) (a : Agent) (r : Result) : State :=
  s.setAgent a { inflight := none, result := some r }

/-- Agent `a` is told `r` by an observer; what it has in flight stays (40_buffer_ops.md R98; log 13). -/
def State.report (s : State) (a : Agent) (r : Result) : State :=
  s.setAgent a { s.agent a with result := some r }

/-- Agent `a` stands in operation `o`, which has returned nothing yet. -/
def State.hold (s : State) (a : Agent) (o : Op) : State :=
  s.setAgent a { inflight := some o, result := none }

/-! ## Entering and leaving a handler (60_exceptions.md R158, R159) -/

/-- Entry of an activation: nothing is saved and no register changes; the interrupted agents' records
stay as they are (R158). The activation is now the innermost one (20_memory.md R53). The foreground
enters no context. -/
def State.enter (s : State) (a : Agent) : State :=
  match a with
  | .fg => s
  | .rxi => { s with active := .rxi :: s.active }
  | .txi => { s with active := .txi :: s.active }

/-- Return of the innermost activation: nothing is restored, and the interrupted agent goes on at the
micro-step it was stopped before (R159). -/
def State.leave (s : State) (a : Agent) : State :=
  match a with
  | .fg => s
  | .rxi => { s with active := s.active.tail }
  | .txi => { s with active := s.active.tail }

/-- May agent `a` take a micro-step as far as preemption goes: the foreground when no activation is in
progress, a handler when its activation is the innermost (20_memory.md R52, 60_exceptions.md R159)? -/
def State.mayMove (s : State) (a : Agent) : Bool :=
  match s.active with
  | [] => a == .fg
  | h :: _ => a == h

/-! ## The peripheral's signals -/

/-- RX1: sample `rx_data` and `rx_err`, and `rx_ready <- false`, one micro-step
(42_transport_interrupt.md R131; 20_memory.md R43). The sampled pair stays readable in the signals. -/
def State.readRx (s : State) : State := { s with per := { s.per with rxReady := false } }

/-- RX3: the acknowledgment, `rx_err <- false` (R131). -/
def State.ackRx (s : State) : State := { s with per := { s.per with rxErr := false } }

/-- TX3: `tx_data <- b ; tx_empty <- false`, one micro-step (R134; 20_memory.md R43). -/
def State.sendTx (s : State) (b : Byte) : State :=
  { s with per := { s.per with txData := b, txEmpty := false } }

/-- W4: `tx_irq_en <- true` (41_transport_foreground.md R114). -/
def State.enableTx (s : State) : State := { s with per := { s.per with txIrqEn := true } }

/-- TX5 and T3: `tx_irq_en <- false` (R111, R134). -/
def State.disableTx (s : State) : State := { s with per := { s.per with txIrqEn := false } }

/-- `PER` presents a received byte with any error flag, while `rx_ready` is false
(60_exceptions.md R160 (a)). While it is true, `PER` has no such move (R160 (e), log 15). -/
def receive (b : Byte) (e : Bool) (s : State) : Host.Outcome State Fault Refusal :=
  if s.per.rxReady then .refused .perNotReady
  else .next { s with per := { s.per with rxReady := true, rxData := b, rxErr := e } }

/-- `PER` consumes `tx_data` and sets `tx_empty`, while it is false (R160 (b)). -/
def transmit (s : State) : Host.Outcome State Fault Refusal :=
  if s.per.txEmpty then .refused .perNotReady
  else .next { s with per := { s.per with txEmpty := true } }

end Sys2Proof.Machine
end

