-- ==== Sys2Proof/Machine/Operands.lean ====
section
/-! DEFINITION. How an operation and its operands (30_encoding.md R65) become a running operation: when
the issuing agent may issue it (R68 and the rules R152 gathers), the in-flight record it starts with
(10_state.md R29), and the outcome of a command whose code is reserved (R67). -/

namespace Sys2Proof.Machine

/-- The first refusal of the list whose condition holds. -/
def firstRefusal : List (Bool × Refusal) → Option Refusal
  | [] => none
  | (c, r) :: rest => if c then some r else firstRefusal rest

/-- The issuing agent is not the foreground. -/
def State.notForeground (s : State) : Bool := s.issuer != .fg

/-- The issuing agent has an operation in flight: one at a time (20_memory.md R50, 10_state.md R29). -/
def State.issuerBusy (s : State) : Bool := (s.agent s.issuer).inflight.isSome

/-- The issuing agent is the foreground and an activation is in progress (20_memory.md R52 (b)). -/
def State.issuerPreempted (s : State) : Bool := s.issuer == .fg && !s.active.isEmpty

/-- Why the issuing agent may not issue a format B code that changes a buffer, beyond the conditions of
the code itself: it is the single test agent, which is the foreground (R68 last paragraph, 20_memory.md
R50; log 21), has nothing in flight, and is not preempted. -/
def State.fgRefusals (s : State) : List (Bool × Refusal) :=
  [(s.issuerBusy, .agentBusy), (s.issuerPreempted, .preempted)]

/-- Why a handler may not issue an observer: outside a transport the one agent is the test agent (R68); it
runs in the interrupt context, which only a request being served enters, so its own activation is in
progress (60_exceptions.md R161; log 13), and is the innermost (20_memory.md R53). -/
def State.handlerRefusals (s : State) : List (Bool × Refusal) :=
  [(!s.booted, .wrongAgent), (!s.active.contains s.issuer, .outsideActivation),
    (!s.mayMove s.issuer, .preempted)]

/-- Why an observer of `f` may not be issued: `f` is not initialised (10_state.md R32); the foreground is
busy or preempted; a handler is outside its activation. -/
def State.observerRefusals (s : State) (f : Inst) : List (Bool × Refusal) :=
  (!s.initialised f, .notInitialised) ::
    (if s.notForeground then s.handlerRefusals else s.fgRefusals)

/-- Why the issuing agent may not issue the operation now; `none` when it may. The table of R68, with
initialisation (10_state.md R32, 70_reset_and_hazards.md R181), `INIT` in use and the second `TINIT`
(40_buffer_ops.md R82, 41_transport_foreground.md R111), the buffer codes of an assembled transport
(00_scope.md R4, R68; log 10), and the requests of the two handlers (60_exceptions.md R153, R154). -/
def legality (i : Instr) (s : State) : Option Refusal :=
  match i with
  | .init _ => firstRefusal ((s.notForeground, .wrongAgent) :: (s.booted, .bufferInUse) :: s.fgRefusals)
  | .enq f _ _ => firstRefusal
      ((s.booted, .transportOnly) :: (s.notForeground, .wrongAgent) :: (!s.initialised f, .notInitialised) :: s.fgRefusals)
  | .deq f _ _ => firstRefusal
      ((s.booted, .transportOnly) :: (s.notForeground, .wrongAgent) :: (!s.initialised f, .notInitialised) :: s.fgRefusals)
  | .empty f => firstRefusal (s.observerRefusals f)
  | .full f => firstRefusal (s.observerRefusals f)
  | .len f => firstRefusal (s.observerRefusals f)
  | .tinit => firstRefusal ((s.notForeground, .wrongAgent) :: (s.booted, .secondTinit) :: s.fgRefusals)
  | .write _ _ => firstRefusal ((s.notForeground, .wrongAgent) :: (!s.booted, .notInitialised) :: s.fgRefusals)
  | .read1 => firstRefusal ((s.notForeground, .wrongAgent) :: (!s.booted, .notInitialised) :: s.fgRefusals)
  | .rxirq => firstRefusal
      [(s.issuer != .rxi, .wrongAgent), (!s.booted, .notInitialised), (s.issuerBusy, .agentBusy),
        (!s.per.rxRequest, .noRequest)]
  | .txirq => firstRefusal
      [(s.issuer != .txi, .wrongAgent), (!s.booted, .notInitialised), (s.issuerBusy, .agentBusy),
        (!s.per.txRequest, .noRequest)]

/-- The operation's outcome `t` where it may be issued, the refusal where not. -/
def State.whenLegal (s : State) (i : Instr) (t : State) : Host.Outcome State Fault Refusal :=
  match legality i s with
  | some r => .refused r
  | none => .next t

/-- The in-flight record an operation starts with: before its first micro-step (10_state.md R29). None for
the observers, which are one micro-step. -/
def opOf : Instr → Option Op
  | .init f => some (.init f .i1)
  | .enq f av payload => some (.enq f av payload { accepted := 0, pos := .q0 })
  | .deq f av maxCount => some (.deq f av maxCount { out := [], pos := .p0 })
  | .empty _ => none
  | .full _ => none
  | .len _ => none
  | .tinit => some (.tinit (.t1 .i1))
  | .write av payload => some (.write av payload .w0)
  | .read1 => some (.read1 (.x1 { out := [], pos := .p0 }))
  | .rxirq => some (.rxirq .rx1)
  | .txirq => some (.txirq (.tx1 { out := [], pos := .p0 }))

/-- What starting an operation does to the boot flags: while `INIT.f` or `TINIT` runs, the instances it
initialises are not initialised (10_state.md R32; log 12). -/
def State.unready (s : State) : Instr → State
  | .init f => s.setInitialised f false
  | .tinit => (s.setInitialised .inbound false).setInitialised .outbound false
  | .enq _ _ _ => s
  | .deq _ _ _ => s
  | .empty _ => s
  | .full _ => s
  | .len _ => s
  | .write _ _ => s
  | .read1 => s
  | .rxirq => s
  | .txirq => s

/-- The issuing agent stands before the first micro-step of the operation `i`, in the record `o`; a handler's
activation has been entered (60_exceptions.md R158). -/
def State.launch (s : State) (i : Instr) (o : Op) : State :=
  ((s.unready i).hold s.issuer o).enter s.issuer

/-- A presented command goes to what its code selects; a reserved code is refused with no change of
state (30_encoding.md R67). -/
def onDecoded (c : Command) (k : Instr → Host.Outcome State Fault Refusal) :
    Host.Outcome State Fault Refusal :=
  match decode c with
  | .instr i => k i
  | .reserved _ => .refused (.reservedCode c.cc)

/-- Agent `a` presents a command: the rest of the tape is still to come, and `a` is the issuer. -/
def State.present (s : State) (a : Agent) (rest : List Event) : State :=
  { s with issuer := a, todo := rest }

/-! ## What placing a command takes (log 22) -/

/-- Nothing in flight and no activation in progress. -/
def State.settle (s : State) : State :=
  { s with
    fg := { s.fg with inflight := none }
    rxi := { s.rxi with inflight := none }
    txi := { s.txi with inflight := none }
    active := [] }

/-- The boot flags and the request signals under which R68 and R152 to R154 let the operation be issued.
No buffer and no data of the peripheral changes. -/
def State.stage (s : State) : Option Instr → State
  | none => s
  | some (.init _) => { s.settle with booted := false }
  | some (.enq f _ _) => { s.settle with booted := false }.setInitialised f true
  | some (.deq f _ _) => { s.settle with booted := false }.setInitialised f true
  | some (.empty f) => s.settle.setInitialised f true
  | some (.full f) => s.settle.setInitialised f true
  | some (.len f) => s.settle.setInitialised f true
  | some .tinit => { s.settle with booted := false }
  | some (.write _ _) => s.settle.boot
  | some .read1 => s.settle.boot
  | some .rxirq => { s.settle.boot with per := { s.per with rxReady := true } }
  | some .txirq => { s.settle.boot with per := { s.per with txEmpty := true, txIrqEn := true } }

/-- The agent that issues a placed command: the one R68 names, the foreground for a reserved code. -/
def stagedAgent : Option Instr → Agent
  | none => .fg
  | some i => i.usualAgent

/-- The command is the next move of the tape, and the state is one that lets it be issued. -/
def State.place (s : State) (c : Command) : State :=
  let i := (decode c).toOption
  { s.stage i with todo := .issue (stagedAgent i) c :: s.todo }

end Sys2Proof.Machine
end

