-- ==== Sys2Proof/Machine/Buffers.lean ====
section
/-! DEFINITION. The Circular Byte Buffer operations (40_buffer_ops.md): `INIT`, `ENQ`, `DEQ`, `EMPTY`,
`FULL`, `LEN`. Each is given twice over the same micro-operations of Machine/Ops.lean: whole, as it runs
when no other agent's micro-step falls inside it, and as its next micro-step, for runs in which others do
(20_memory.md R51). -/

namespace Sys2Proof.Machine

/-! ## The per-byte steps and the batches, whole -/

/-- `INIT` on one buffer: I1 to I4 (R81). -/
def Buffer.init (b : Buffer) : Buffer := b.i1.i2.i3.i4

/-- `ENQ1(f, x)`: E0 to E4; `none` is `stopped` (R84). -/
def Buffer.enq1 (b : Buffer) (x : Byte) : Option Buffer :=
  if b.isFull then none else some ((b.e1 x).e2.e3.e4)

/-- `DEQ1(f)`: D0 to D4; `none` is `stopped`, else the buffer after and the byte removed (R90). -/
def Buffer.deq1 (f : Inst) (b : Buffer) : Option (Buffer × Byte) :=
  if b.isEmpty then none else some (b.d2.d3.d4, b.d1 f)

/-- The loop Q2 to Q5 of `ENQ`, over the bytes still to enqueue: the buffer after and how many of them
were accepted (R86). -/
def Buffer.enqLoop (b : Buffer) : List Byte → Buffer × Nat
  | [] => (b, 0)
  | x :: rest =>
    match b.enq1 x with
    | none => (b, 0)
    | some b' => ((b'.enqLoop rest).1, (b'.enqLoop rest).2 + 1)

/-- The loop P2 to P6 of `DEQ`, for at most so many more bytes: the buffer after and the bytes removed,
in removal order (R92). -/
def Buffer.deqLoop (f : Inst) (b : Buffer) : Nat → Buffer × List Byte
  | 0 => (b, [])
  | n + 1 =>
    match b.deq1 f with
    | none => (b, [])
    | some (b', x) => ((b'.deqLoop f n).1, x :: (b'.deqLoop f n).2)

/-- `ENQ` with its argument test (Q0, R94): the buffer after and `accepted`. -/
def Buffer.enqueue (b : Buffer) (av : Bool) (payload : List Byte) : Buffer × Nat :=
  if av then b.enqLoop payload else (b, 0)

/-- `DEQ` with its argument test (P0, R94): the buffer after and the bytes removed. -/
def Buffer.dequeue (f : Inst) (b : Buffer) (av : Bool) (maxCount : Nat) : Buffer × List Byte :=
  if av then b.deqLoop f maxCount else (b, [])

/-! ## The meanings -/

/-- `INIT.f` (R81, R82). -/
def execInit (f : Inst) (s : State) : Host.Outcome State Fault Refusal :=
  s.whenLegal (.init f)
    (((s.setBuf f (s.buf f).init).setInitialised f true).finish s.issuer .nothing)

/-- `ENQ.f` (R86, R94). -/
def execEnq (f : Inst) (av : Bool) (payload : List Byte) (s : State) :
    Host.Outcome State Fault Refusal :=
  let r := (s.buf f).enqueue av payload
  s.whenLegal (.enq f av payload) ((s.setBuf f r.1).finish s.issuer (.accepted r.2))

/-- `DEQ.f` (R92, R94). -/
def execDeq (f : Inst) (av : Bool) (maxCount : Nat) (s : State) : Host.Outcome State Fault Refusal :=
  let r := (s.buf f).dequeue f av maxCount
  s.whenLegal (.deq f av maxCount) ((s.setBuf f r.1).finish s.issuer (.removed r.2 r.2.length))

/-- `EMPTY.f`, M1: `return (f.count == 0)` (R95). A handler may call it inside its activation, which goes on
(30_encoding.md R68; log 13). -/
def execEmpty (f : Inst) (s : State) : Host.Outcome State Fault Refusal :=
  s.whenLegal (.empty f) (s.report s.issuer (.bool (s.buf f).isEmpty))

/-- `FULL.f`, M1: `return (f.count == C)` (R96); by whom, as `EMPTY.f`. -/
def execFull (f : Inst) (s : State) : Host.Outcome State Fault Refusal :=
  s.whenLegal (.full f) (s.report s.issuer (.bool (s.buf f).isFull))

/-- `LEN.f`, M1: `return f.count` (R97); by whom, as `EMPTY.f`. -/
def execLen (f : Inst) (s : State) : Host.Outcome State Fault Refusal :=
  s.whenLegal (.len f) (s.report s.issuer (.count (s.buf f).count))

/-! ## One micro-step

Each answers what it touched, and either the record that is still in flight (`inl`) or what the
operation returned (`inr`). -/

/-- The next micro-step of `INIT` on one buffer (R81); `none` when it has returned. -/
def InitPos.step (p : InitPos) (b : Buffer) : Buffer × Option InitPos :=
  match p with
  | .i1 => (b.i1, some .i2)
  | .i2 => (b.i2, some .i3)
  | .i3 => (b.i3, some .i4)
  | .i4 => (b.i4, none)

/-- The next micro-step of `ENQ` on its buffer (R84, R86). -/
def EnqRun.step (av : Bool) (payload : List Byte) (r : EnqRun) (b : Buffer) : Buffer × (EnqRun ⊕ Nat) :=
  match r.pos with
  | .q0 => (b, if av then .inl { r with pos := .q1 } else .inr 0)
  | .q1 => (b, .inl { accepted := 0, pos := .q2 })
  | .q2 =>
    (b, match payload[r.accepted]? with
      | some x => .inl { r with pos := .e0 x }
      | none => .inl { r with pos := .q6 })
  | .e0 x => (b, .inl { r with pos := if b.isFull then .q4 true else .e1 x })
  | .e1 x => (b.e1 x, .inl { r with pos := .e2 })
  | .e2 => (b.e2, .inl { r with pos := .e3 })
  | .e3 => (b.e3, .inl { r with pos := .e4 })
  | .e4 => (b.e4, .inl { r with pos := .q4 false })
  | .q4 stopped => (b, if stopped then .inr r.accepted else .inl { r with pos := .q5 })
  | .q5 => (b, .inl { accepted := r.accepted + 1, pos := .q2 })
  | .q6 => (b, .inr r.accepted)

/-- The next micro-step of `DEQ` on its buffer (R90, R92). -/
def DeqRun.step (f : Inst) (av : Bool) (maxCount : Nat) (r : DeqRun) (b : Buffer) :
    Buffer × (DeqRun ⊕ List Byte) :=
  match r.pos with
  | .p0 => (b, if av then .inl { r with pos := .p1 } else .inr [])
  | .p1 => (b, .inl { out := [], pos := .p2 })
  | .p2 => (b, .inl { r with pos := if r.out.length < maxCount then .d0 else .p7 })
  | .d0 => (b, .inl { r with pos := if b.isEmpty then .p4 none else .d1 })
  | .d1 => (b, .inl { r with pos := .d2 (b.d1 f) })
  | .d2 x => (b.d2, .inl { r with pos := .d3 x })
  | .d3 x => (b.d3, .inl { r with pos := .d4 x })
  | .d4 x => (b.d4, .inl { r with pos := .p4 (some x) })
  | .p4 none => (b, .inr r.out)
  | .p4 (some x) => (b, .inl { r with pos := .p5 x })
  | .p5 x => (b, .inl { out := r.out ++ [x], pos := .p6 })
  | .p6 => (b, .inl { r with pos := .p2 })
  | .p7 => (b, .inr r.out)

/-- `INIT.f` in the state. -/
def microInit (f : Inst) (p : InitPos) (s : State) : State × (Op ⊕ Result) :=
  let r := p.step (s.buf f)
  match r.2 with
  | some p' => (s.setBuf f r.1, .inl (.init f p'))
  | none => ((s.setBuf f r.1).setInitialised f true, .inr .nothing)

/-- `ENQ.f` in the state. -/
def microEnq (f : Inst) (av : Bool) (payload : List Byte) (r : EnqRun) (s : State) : State × (Op ⊕ Result) :=
  let q := r.step av payload (s.buf f)
  (s.setBuf f q.1, match q.2 with
    | .inl r' => .inl (.enq f av payload r')
    | .inr n => .inr (.accepted n))

/-- `DEQ.f` in the state. -/
def microDeq (f : Inst) (av : Bool) (maxCount : Nat) (r : DeqRun) (s : State) : State × (Op ⊕ Result) :=
  let q := r.step f av maxCount (s.buf f)
  (s.setBuf f q.1, match q.2 with
    | .inl r' => .inl (.deq f av maxCount r')
    | .inr out => .inr (.removed out out.length))

end Sys2Proof.Machine
end

