-- ==== Sys2Proof/Machine/Foreground.lean ====
section
/-! DEFINITION. The Serial Transport, foreground side (41_transport_foreground.md): `TINIT`, `WRITE`,
`READ1`, whole and by micro-steps. -/

namespace Sys2Proof.Machine

/-- `TINIT`, T1 to T4 (R111). -/
def execTinit (s : State) : Host.Outcome State Fault Refusal :=
  s.whenLegal .tinit
    ((((s.setBuf .inbound s.inb.init).setBuf .outbound s.outb.init).disableTx.boot).finish s.issuer .nothing)

/-- W2 to W5 of `WRITE`, entered once the wait is over: enqueue the payload, and enable the transmit
interrupt if it is not enabled (R114). -/
def State.writeOut (s : State) (payload : List Byte) : State :=
  let t := s.setBuf .outbound (s.outb.enqueue true payload).1
  if t.per.transmitActive then t else t.enableTx

/-- `WRITE` (R114): `FAIL` on a null argument (W0); with less free space than the payload needs, the
foreground is held at W1, with the operation in flight (R115, R117); else all of it is enqueued and the
result is `OK`. -/
def execWrite (av : Bool) (payload : List Byte) (s : State) : Host.Outcome State Fault Refusal :=
  s.whenLegal (.write av payload)
    (if av then
      if payload.length ≤ s.outb.free then (s.writeOut payload).finish s.issuer (.status .ok)
      else s.hold s.issuer (.write av payload .w1)
    else s.finish s.issuer (.status .fail))

/-- `READ1`: X1 to X3 (R118). -/
def execRead1 (s : State) : Host.Outcome State Fault Refusal :=
  let r := s.inb.dequeue .inbound true 1
  s.whenLegal .read1 ((s.setBuf .inbound r.1).finish s.issuer (.byte r.2.head?))

/-! ## One micro-step -/

/-- The next micro-step of `TINIT` (R111). -/
def microTinit (p : TinitPos) (s : State) : State × (Op ⊕ Result) :=
  match p with
  | .t1 q =>
    (s.setBuf .inbound (q.step s.inb).1, match (q.step s.inb).2 with
      | some q' => .inl (.tinit (.t1 q'))
      | none => .inl (.tinit (.t2 .i1)))
  | .t2 q =>
    (s.setBuf .outbound (q.step s.outb).1, match (q.step s.outb).2 with
      | some q' => .inl (.tinit (.t2 q'))
      | none => .inl (.tinit .t3))
  | .t3 => (s.disableTx, .inl (.tinit .t4))
  | .t4 => (s.boot, .inr .nothing)

/-- The next micro-step of `WRITE` (R114). At W1 the foreground re-reads `OUT.count` and stays while the
space does not suffice (R115). -/
def microWrite (av : Bool) (payload : List Byte) (p : WritePos) (s : State) : State × (Op ⊕ Result) :=
  match p with
  | .w0 => (s, if av then .inl (.write av payload .w1) else .inr (.status .fail))
  | .w1 =>
    (s, .inl (.write av payload
      (if payload.length ≤ s.outb.free then .w2 { accepted := 0, pos := .q0 } else .w1)))
  | .w2 r =>
    let q := r.step true payload s.outb
    (s.setBuf .outbound q.1, match q.2 with
      | .inl r' => .inl (.write av payload (.w2 r'))
      | .inr _ => .inl (.write av payload .w3))
  | .w3 => (s, .inl (.write av payload (if s.per.transmitActive then .w5 else .w4)))
  | .w4 => (s.enableTx, .inl (.write av payload .w5))
  | .w5 => (s, .inr (.status .ok))

/-- The next micro-step of `READ1` (R118). -/
def microRead1 (p : ReadPos) (s : State) : State × (Op ⊕ Result) :=
  match p with
  | .x1 r =>
    let q := r.step .inbound true 1 s.inb
    (s.setBuf .inbound q.1, match q.2 with
      | .inl r' => .inl (.read1 (.x1 r'))
      | .inr out => .inl (.read1 (.x2 out)))
  | .x2 [] => (s, .inr (.byte none))
  | .x2 (b :: _) => (s, .inl (.read1 (.x3 b)))
  | .x3 b => (s, .inr (.byte (some b)))

end Sys2Proof.Machine
end

