-- ==== Sys2Proof/Machine/Interrupts.lean ====
section
/-! DEFINITION. The Serial Transport, interrupt side (42_transport_interrupt.md): `RXIRQ` and `TXIRQ`,
whole and by micro-steps. -/

namespace Sys2Proof.Machine

/-- RX5 to RX7 of `RXIRQ`, without a line error: full, the byte is dropped; else it is enqueued (R131,
R133). -/
def State.storeRx (s : State) (b : Byte) : State :=
  if s.inb.isFull then s else s.setBuf .inbound (s.inb.enqueue true [b]).1

/-- `RXIRQ` (R131): the unconditional read (RX1); on a line error the acknowledgment, and the byte is
discarded (RX2 to RX4, R135); else RX5 to RX7. -/
def execRxirq (s : State) : Host.Outcome State Fault Refusal :=
  s.whenLegal .rxirq
    ((if s.per.rxErr then s.readRx.ackRx else s.readRx.storeRx s.per.rxData).finish s.issuer .nothing)

/-- `TXIRQ` (R134): a byte of `OUT` is handed to the peripheral (TX3); on an empty buffer the transmit
interrupt is disabled (TX5). -/
def execTxirq (s : State) : Host.Outcome State Fault Refusal :=
  let r := s.outb.dequeue .outbound true 1
  s.whenLegal .txirq
    ((match r.2 with
      | b :: _ => (s.setBuf .outbound r.1).sendTx b
      | [] => (s.setBuf .outbound r.1).disableTx).finish s.issuer .nothing)

/-! ## One micro-step -/

/-- The next micro-step of `RXIRQ` (R131). -/
def microRxirq (p : RxPos) (s : State) : State × (Op ⊕ Result) :=
  match p with
  | .rx1 => (s.readRx, .inl (.rxirq (.rx2 s.per.rxData s.per.rxErr)))
  | .rx2 b e => (s, .inl (.rxirq (if e then .rx3 else .rx5 b)))
  | .rx3 => (s.ackRx, .inl (.rxirq .rx4))
  | .rx4 => (s, .inr .nothing)
  | .rx5 b =>
    (s, if s.inb.isFull then .inr .nothing else .inl (.rxirq (.rx6 b { accepted := 0, pos := .q0 })))
  | .rx6 b r =>
    let q := r.step true [b] s.inb
    (s.setBuf .inbound q.1, match q.2 with
      | .inl r' => .inl (.rxirq (.rx6 b r'))
      | .inr _ => .inl (.rxirq .rx7))
  | .rx7 => (s, .inr .nothing)

/-- The next micro-step of `TXIRQ` (R134). -/
def microTxirq (p : TxPos) (s : State) : State × (Op ⊕ Result) :=
  match p with
  | .tx1 r =>
    let q := r.step .outbound true 1 s.outb
    (s.setBuf .outbound q.1, match q.2 with
      | .inl r' => .inl (.txirq (.tx1 r'))
      | .inr out => .inl (.txirq (.tx2 out)))
  | .tx2 [] => (s, .inl (.txirq .tx5))
  | .tx2 (b :: _) => (s, .inl (.txirq (.tx3 b)))
  | .tx3 b => (s.sendTx b, .inl (.txirq .tx4))
  | .tx4 => (s, .inr .nothing)
  | .tx5 => (s.disableTx, .inl (.txirq .tx6))
  | .tx6 => (s, .inr .nothing)

end Sys2Proof.Machine
end

