-- ==== Sys2Proof/Machine/Dispatch.lean ====
section
/-! DEFINITION. The meaning of every operation: one arm per constructor of `Instr`, each one call. -/

namespace Sys2Proof.Machine

def exec (i : Instr) (s : State) : Host.Outcome State Fault Refusal :=
  match i with
  | .init f => Sys2Proof.Machine.execInit f s
  | .enq f av payload => Sys2Proof.Machine.execEnq f av payload s
  | .deq f av maxCount => Sys2Proof.Machine.execDeq f av maxCount s
  | .empty f => Sys2Proof.Machine.execEmpty f s
  | .full f => Sys2Proof.Machine.execFull f s
  | .len f => Sys2Proof.Machine.execLen f s
  | .tinit => Sys2Proof.Machine.execTinit s
  | .write av payload => Sys2Proof.Machine.execWrite av payload s
  | .read1 => Sys2Proof.Machine.execRead1 s
  | .rxirq => Sys2Proof.Machine.execRxirq s
  | .txirq => Sys2Proof.Machine.execTxirq s

end Sys2Proof.Machine
end

