-- ==== Sys2Proof/Machine/Micro.lean ====
section
/-! DEFINITION. One micro-step of an agent (20_memory.md R51): which agent may move (R52, R53), the next
micro-step of its in-flight operation, and its return (60_exceptions.md R159). -/

namespace Sys2Proof.Machine

/-- Issue an operation and stand before its first micro-step. An observer is one micro-step, so to issue it is
to run it (10_state.md R29, 40_buffer_ops.md R95 to R97). -/
def start (i : Instr) (s : State) : Host.Outcome State Fault Refusal :=
  match opOf i with
  | some o => s.whenLegal i (s.launch i o)
  | none => exec i s

/-- The next micro-step of an in-flight operation. -/
def microOp (o : Op) (s : State) : State × (Op ⊕ Result) :=
  match o with
  | .init f p => microInit f p s
  | .enq f av payload r => microEnq f av payload r s
  | .deq f av maxCount r => microDeq f av maxCount r s
  | .tinit p => microTinit p s
  | .write av payload p => microWrite av payload p s
  | .read1 p => microRead1 p s
  | .rxirq p => microRxirq p s
  | .txirq p => microTxirq p s

/-- Agent `a` takes the next micro-step of its operation `o`: it goes on, or it returns, and then leaves
the activation it was (R159). -/
def State.advance (s : State) (a : Agent) (o : Op) : State :=
  match (microOp o s).2 with
  | .inl o' => (microOp o s).1.hold a o'
  | .inr r => ((microOp o s).1.finish a r).leave a

/-- Agent `a` moves. A preempted agent and an agent with nothing in flight have no move. -/
def tick (a : Agent) (s : State) : Host.Outcome State Fault Refusal :=
  match (s.agent a).inflight with
  | none => .refused .nothingInFlight
  | some o => if s.mayMove a then .next (s.advance a o) else .refused .preempted

/-- Agent `a` moves `n` times with no other agent in between. -/
def ticks (a : Agent) : Nat → State → Host.Outcome State Fault Refusal
  | 0, s => .next s
  | n + 1, s =>
    match tick a s with
    | .next t => ticks a n t
    | .fault r => .fault r
    | .refused r => .refused r

end Sys2Proof.Machine
end

