-- ==== Sys2Proof/Machine/Step.lean ====
section
/-! DEFINITION. One step: the next move of the input tape (20_memory.md R51, R55: an execution is one
total order of micro-steps; log 6). With no move left nothing happens (30_encoding.md R71 (a)). -/

namespace Sys2Proof.Machine

/-- The next move of the run. An issued command is decoded and run by `exec` with its agent as the
issuer; the other moves go to the operation that carries them out. -/
def step (s : State) : Host.Outcome State Fault Refusal :=
  match s.todo with
  | [] => .next s
  | .issue a c :: rest => onDecoded c (fun i => exec i (s.present a rest))
  | .start a c :: rest => onDecoded c (fun i => start i (s.present a rest))
  | .tick a :: rest => tick a { s with todo := rest }
  | .receive b e :: rest => receive b e { s with todo := rest }
  | .transmit :: rest => transmit { s with todo := rest }

/-- The row's word is the next command presented, by an agent and in a state that let it be issued
(log 22). -/
def State.withFetchWord (s : State) (nbits w : Nat) : State :=
  if nbits = 8 then s.place (tableCommand w) else s

end Sys2Proof.Machine
end

