-- ==== Sys2Proof/Safety.lean ====
section
/-! DEFINITION. What the claims speak of: the contents of a buffer (10_state.md R22), and the conditions
that hold of every state a run reaches, at every micro-step (10_state.md R18 to R20, 20_memory.md R44,
R52 to R54, 41_transport_foreground.md R116, 42_transport_interrupt.md R132, R137). -/

namespace Sys2Proof.Machine

/-! ## Contents -/

/-- `contents(f)` of a quiescent buffer: its `f.count` bytes, oldest first (R22). -/
def Buffer.contents (f : Inst) (b : Buffer) : List Byte :=
  (List.range b.count).map (fun j => b.readSlot f ((b.ridx + j) &&& (b.cap - 1)))

/-- 1 while a producer stands between E2 and E3: the index is advanced, the count not yet (R20). -/
def enqLag : EnqPos → Nat
  | .e3 => 1
  | _ => 0

/-- 1 while a consumer stands between D2 and D3: the index is advanced, the count not yet (R20). -/
def deqLag : DeqPos → Nat
  | .d3 _ => 1
  | _ => 0

/-- The producer's lag; none without a producer. -/
def prodLag : Option (EnqRun × List Byte) → Nat
  | some (r, _) => enqLag r.pos
  | none => 0

/-- The consumer's lag; none without a consumer. -/
def consLag : Option DeqRun → Nat
  | some r => deqLag r.pos
  | none => 0

/-- The slot of the oldest byte whose removal is not done: `f.ridx`, or the slot before it while the
consumer stands between D2 and D3. -/
def Buffer.oldest (b : Buffer) (c : Option DeqRun) : Nat := (b.ridx + b.cap - consLag c) % b.cap

/-- The bytes whose increment is done and whose decrement is not, oldest first (20_memory.md R44): the
abstract queue of the buffer at any micro-step. With nobody part-way it is `contents(f)`. -/
def Buffer.unread (f : Inst) (b : Buffer) (c : Option DeqRun) : List Byte :=
  (List.range b.count).map (fun j => b.readSlot f ((b.oldest c + j) % b.cap))

/-! ## Who is part-way through what -/

/-- The `ENQ` on `f` that an operation is inside of, with its payload. -/
def Op.enqOn (f : Inst) : Op → Option (EnqRun × List Byte)
  | .enq g _ payload r => if g = f then some (r, payload) else none
  | .write _ payload (.w2 r) => if f = .outbound then some (r, payload) else none
  | .rxirq (.rx6 b r) => if f = .inbound then some (r, [b]) else none
  | _ => none

/-- The `DEQ` on `f` that an operation is inside of. -/
def Op.deqOn (f : Inst) : Op → Option DeqRun
  | .deq g _ _ r => if g = f then some r else none
  | .read1 (.x1 r) => if f = .inbound then some r else none
  | .txirq (.tx1 r) => if f = .outbound then some r else none
  | _ => none

/-- The producer of `f` part-way through an `ENQ`: the foreground, or for `IN` the receive path (R24). -/
def State.producing (s : State) : Inst → Option (EnqRun × List Byte)
  | .inbound => (s.rxi.inflight.bind (Op.enqOn .inbound)).or (s.fg.inflight.bind (Op.enqOn .inbound))
  | .outbound => s.fg.inflight.bind (Op.enqOn .outbound)

/-- The consumer of `f` part-way through a `DEQ`: the foreground, or for `OUT` the transmit path (R24). -/
def State.consuming (s : State) : Inst → Option DeqRun
  | .inbound => s.fg.inflight.bind (Op.deqOn .inbound)
  | .outbound => (s.txi.inflight.bind (Op.deqOn .outbound)).or (s.fg.inflight.bind (Op.deqOn .outbound))

/-- The abstract queue of the instance `f` in a state. -/
def State.queue (s : State) (f : Inst) : List Byte := (s.buf f).unread f (s.consuming f)

/-! ## The invariant of one buffer -/

/-- Registers in their ranges, so in the widths K, K and K+1 (10_state.md R12, R13, R14, R18). -/
def Buffer.InRange (b : Buffer) : Prop := b.widx < b.cap ∧ b.ridx < b.cap ∧ b.count ≤ b.cap

/-- Storage in canonical form, with slots `0..C-1` only (R11; 20_memory.md R40, R42). -/
def Buffer.StorageOk (b : Buffer) : Prop :=
  memWf b.mem = true ∧ ∀ c ∈ b.mem, c.1 < b.cap

/-- What a producer part-way through its per-byte step may rely on (20_memory.md R44, R48, R54): it has
seen a free slot, and its byte is in the slot it stored to. -/
def ProducerOk (b : Buffer) : Option (EnqRun × List Byte) → Prop
  | none => True
  | some (r, payload) =>
    match r.pos with
    | .e0 x => payload[r.accepted]? = some x
    | .e1 x => payload[r.accepted]? = some x ∧ b.count < b.cap
    | .e2 => b.count < b.cap ∧ r.accepted < payload.length ∧
        memRead b.mem b.widx = payload[r.accepted]?
    | .e3 => b.count < b.cap ∧ r.accepted < payload.length ∧
        memRead b.mem ((b.widx + b.cap - 1) % b.cap) = payload[r.accepted]?
    | .e4 => r.accepted < payload.length
    | .q4 stopped => stopped = false → r.accepted < payload.length
    | .q5 => r.accepted < payload.length
    | .q0 => r.accepted = 0
    | .q1 => r.accepted = 0
    | .q2 => r.accepted ≤ payload.length
    | .q6 => r.accepted = payload.length

/-- What a consumer part-way through its per-byte step may rely on (R44, R48, R54): it has seen an unread
byte, and the byte it read is the oldest one. -/
def ConsumerOk (b : Buffer) (c : Option DeqRun) : Prop :=
  match c with
  | none => True
  | some r =>
    match r.pos with
    | .d1 => 0 < b.count
    | .d2 x => 0 < b.count ∧ memRead b.mem (b.oldest c) = some x
    | .d3 x => 0 < b.count ∧ memRead b.mem (b.oldest c) = some x
    | _ => True

/-- An initialised buffer, at any micro-step: the count agrees with the indices up to the lags of the two
sides (10_state.md R20), and every unread byte is in a slot that has been written (R33, R44). -/
structure RingOk (b : Buffer) (p : Option (EnqRun × List Byte)) (c : Option DeqRun) : Prop where
  linked : (b.ridx + b.count + prodLag p) % b.cap = (b.widx + consLag c) % b.cap
  occupied : ∀ j, j < b.count → (memRead b.mem ((b.oldest c + j) % b.cap)).isSome = true
  producer : ProducerOk b p
  consumer : ConsumerOk b c

/-- The empty state of an instance (10_state.md R31). -/
def Buffer.IsReset (b : Buffer) : Prop := b.widx = 0 ∧ b.ridx = 0 ∧ b.count = 0 ∧ b.full = false

/-- What `INIT` has already written when it stands before a micro-step (R81). -/
def initProgress (p : InitPos) (b : Buffer) : Prop :=
  match p with
  | .i1 => True
  | .i2 => b.widx = 0
  | .i3 => b.widx = 0 ∧ b.ridx = 0
  | .i4 => b.widx = 0 ∧ b.ridx = 0 ∧ b.count = 0

/-! ## The invariant of the whole state -/

/-- May agent `a` be inside operation `o`, before or after `TINIT` has returned (30_encoding.md R68)? -/
def Op.fits (o : Op) (a : Agent) (booted : Bool) : Bool :=
  match o, a with
  | .init _ _, .fg => !booted
  | .enq _ _ _ _, .fg => !booted
  | .deq _ _ _ _, .fg => !booted
  | .tinit _, .fg => !booted
  | .write _ _ _, .fg => booted
  | .read1 _, .fg => booted
  | .rxirq _, .rxi => booted
  | .txirq _, .txi => booted
  | _, _ => false

/-- Agents are inside operations they may issue (R68, R161). -/
def State.RolesOk (s : State) : Prop :=
  ∀ a o, (s.agent a).inflight = some o → o.fits a s.booted = true

/-- The activations in progress are those of the handlers that have something in flight, each once; the
foreground is none of them (20_memory.md R53, 60_exceptions.md R159). -/
structure State.NestingOk (s : State) : Prop where
  once : s.active.Nodup
  noForeground : Agent.fg ∉ s.active
  exact : ∀ a, a ≠ Agent.fg → (a ∈ s.active ↔ (s.agent a).inflight.isSome = true)

/-- Initialisation (10_state.md R31, R32; 70_reset_and_hazards.md R181): after `TINIT` both instances are
initialised; an `INIT` or `TINIT` in flight has written what stands before its position; an `ENQ` or `DEQ`
in flight is on an initialised instance. -/
def State.BootOk (s : State) : Prop :=
  (s.booted = true → s.initIn = true ∧ s.initOut = true) ∧
  match s.fg.inflight with
  | some (.init f p) => s.initialised f = false ∧ initProgress p (s.buf f)
  | some (.enq f _ _ _) => s.initialised f = true
  | some (.deq f _ _ _) => s.initialised f = true
  | some (.tinit (.t1 p)) => s.initIn = false ∧ s.initOut = false ∧ initProgress p s.inb
  | some (.tinit (.t2 p)) =>
      s.initIn = false ∧ s.initOut = false ∧ s.inb.IsReset ∧ initProgress p s.outb
  | some (.tinit .t3) => s.initIn = false ∧ s.initOut = false ∧ s.inb.IsReset ∧ s.outb.IsReset
  | some (.tinit .t4) =>
      s.initIn = false ∧ s.initOut = false ∧ s.inb.IsReset ∧ s.outb.IsReset ∧ s.per.txIrqEn = false
  | _ => True

/-- How many bytes of the payload have had their count increment done (E3). -/
def EnqRun.published (r : EnqRun) : Nat :=
  match r.pos with
  | .e4 => r.accepted + 1
  | .q4 false => r.accepted + 1
  | .q5 => r.accepted + 1
  | _ => r.accepted

/-- An `ENQ` that is bound to be accepted in full: there is room for what it has not published, and it
has not stopped (41_transport_foreground.md R116, 42_transport_interrupt.md R132). -/
def Roomy (b : Buffer) (payload : List Byte) (r : EnqRun) : Prop :=
  payload.length ≤ b.free + r.published ∧ r.pos ≠ .q4 true

/-- The `ENQ` of a `WRITE` and of an `RXIRQ` never stop short (R116, R132). -/
def State.FullAcceptOk (s : State) : Prop :=
  (∀ av payload r, s.fg.inflight = some (.write av payload (.w2 r)) → Roomy s.outb payload r) ∧
  (∀ b r, s.rxi.inflight = some (.rxirq (.rx6 b r)) → Roomy s.inb [b] r)

/-- The foreground is inside a `WRITE` between the first increment of its W2 and its W4
(42_transport_interrupt.md R137). -/
def inWriteWindow : Option Op → Prop
  | some (.write _ _ (.w2 r)) => 0 < r.published
  | some (.write _ payload .w3) => payload ≠ []
  | some (.write _ payload .w4) => payload ≠ []
  | _ => False

/-- The transmit path has seen `OUT` empty and not yet acted on it (R134, R137). -/
def sawOutEmpty : Option Op → Prop
  | some (.txirq (.tx1 r)) => r.pos = .p4 none
  | some (.txirq (.tx2 bytes)) => bytes = []
  | some (.txirq .tx5) => True
  | _ => False

/-- The one-byte `DEQ` of a handler: nothing removed until D4 is done, one byte from there on. -/
def singleByte (r : DeqRun) : Prop :=
  match r.pos with
  | .p2 => r.out.length ≤ 1
  | .p6 => r.out.length = 1
  | .p7 => r.out.length = 1
  | _ => r.out = []

/-- The outbound side (R136, R137): in an assembled transport, with the transmit interrupt disabled and
the foreground outside the window of R137, `OUT` is empty. -/
structure State.OutboundOk (s : State) : Prop where
  idleEmpty : s.booted = true → ¬ inWriteWindow s.fg.inflight → s.per.txIrqEn = false → s.outb.count = 0
  seenEmpty : sawOutEmpty s.txi.inflight → s.outb.count = 0
  single : ∀ r, s.txi.inflight = some (.txirq (.tx1 r)) → singleByte r

/-- What holds of every state a run reaches, whatever the schedule and the peripheral. -/
structure State.Inv (s : State) : Prop where
  inRange : ∀ f, (s.buf f).InRange
  storage : ∀ f, (s.buf f).StorageOk
  roles : s.RolesOk
  nesting : s.NestingOk
  boot : s.BootOk
  ring : ∀ f, s.initialised f = true → RingOk (s.buf f) (s.producing f) (s.consuming f)
  fullAccept : s.FullAcceptOk
  outbound : s.OutboundOk

/-! ## Where operations may be issued -/

/-- The foreground may issue an operation: it is the issuer, has nothing in flight, and no activation is in
progress (20_memory.md R50, R52). -/
def State.FgReady (s : State) : Prop := s.issuer = .fg ∧ s.fg.inflight = none ∧ s.active = []

/-- The instance `f` is exercised alone, is initialised, and the test agent may issue (30_encoding.md R68). -/
def State.BenchReady (s : State) (f : Inst) : Prop :=
  s.FgReady ∧ s.booted = false ∧ s.initialised f = true

/-- The foreground may issue an operation of the assembled transport (R68, R181). -/
def State.TransportReady (s : State) : Prop := s.FgReady ∧ s.booted = true

/-- A handler is the issuer, inside its own activation, which is the innermost (60_exceptions.md R161,
20_memory.md R53). -/
def State.InActivation (s : State) : Prop :=
  s.issuer ≠ .fg ∧ s.booted = true ∧ s.active.head? = some s.issuer

/-- The issuing agent may call the observers of `f` (R68, R98): the foreground between its operations, a
handler inside its activation. -/
def State.ObserverReady (s : State) (f : Inst) : Prop :=
  s.initialised f = true ∧ (s.FgReady ∨ s.InActivation)

/-- An `RXIRQ` activation may begin (20_memory.md R52, R53; 60_exceptions.md R153): nothing is asked of the
foreground or of the other handler. -/
def State.RxReady (s : State) : Prop :=
  s.issuer = .rxi ∧ s.booted = true ∧ s.rxi.inflight = none ∧ s.per.rxReady = true

/-- A `TXIRQ` activation may begin (R52, R53, R154). -/
def State.TxReady (s : State) : Prop :=
  s.issuer = .txi ∧ s.booted = true ∧ s.txi.inflight = none ∧ s.per.txEmpty = true ∧
  s.per.txIrqEn = true

/-- The table of R68 for operations issued at the top level; a buffer exercised alone has one test agent,
the foreground (log 21). -/
def mayIssue : Instr → Agent → Bool
  | .init _, a => a == .fg
  | .enq _ _ _, a => a == .fg
  | .deq _ _ _, a => a == .fg
  | .empty _, _ => true
  | .full _, _ => true
  | .len _, _ => true
  | .tinit, a => a == .fg
  | .write _ _, a => a == .fg
  | .read1, a => a == .fg
  | .rxirq, a => a == .rxi
  | .txirq, a => a == .txi

/-- The instance a format B operation acts on; none for formats T and E (R61, R62). -/
def bufferOf : Instr → Option Inst
  | .init f => some f
  | .enq f _ _ => some f
  | .deq f _ _ => some f
  | .empty f => some f
  | .full f => some f
  | .len f => some f
  | .tinit => none
  | .write _ _ => none
  | .read1 => none
  | .rxirq => none
  | .txirq => none

/-- The agent that makes a move; none for the peripheral's own moves. -/
def Event.mover : Event → Option Agent
  | .issue a _ => some a
  | .start a _ => some a
  | .tick a => some a
  | .receive _ _ => none
  | .transmit => none

/-- The agent that makes the next move of the tape, if an agent makes it. -/
def State.mover (s : State) : Option Agent := s.todo.head?.bind Event.mover

/-! ## What runs are compared by -/

/-- The state with both stored full flags cleared: what is left when nobody may look at them (10_state.md
R15). -/
def State.eraseFull (s : State) : State :=
  { s with inb := { s.inb with full := false }, outb := { s.outb with full := false } }

/-- The stored flag says what the count says (10_state.md R19). -/
def Buffer.FlagOk (b : Buffer) : Prop := b.full = decide (b.count = b.cap)

/-- A sequence of operations of the test agent, with running totals of the bytes enqueued and dequeued
since the last `INIT` (40_buffer_ops.md R100). -/
def account : List Instr → State → Nat → Nat → Option (State × Nat × Nat)
  | [], s, enqueued, dequeued => some (s, enqueued, dequeued)
  | i :: rest, s, enqueued, dequeued =>
    match exec i s with
    | .next t =>
      match t.fg.result with
      | some (.accepted n) => account rest t (enqueued + n) dequeued
      | some (.removed _ n) => account rest t enqueued (dequeued + n)
      | some .nothing => account rest t 0 0
      | _ => none
    | .fault _ => none
    | .refused _ => none

/-- An operation of R100's sequences on the instance `f`: `ENQ`, `DEQ` or `INIT`. -/
def movesBytes (f : Inst) : Instr → Prop
  | .enq g _ _ => g = f
  | .deq g _ _ => g = f
  | .init g => g = f
  | _ => False

/-- So many `TXIRQ` activations, the peripheral taking each byte before the next, and the bytes sent in
order (42_transport_interrupt.md R138). -/
def drain : Nat → State → Option (State × List Byte)
  | 0, s => some (s, [])
  | n + 1, s =>
    match exec .txirq { s with issuer := .txi, per := { s.per with txEmpty := true } } with
    | .next t => (drain n t).map (fun p => (p.1, t.per.txData :: p.2))
    | .fault _ => none
    | .refused _ => none

/-- Nobody is part-way through anything. -/
def State.Quiet (s : State) : Prop :=
  s.fg.inflight = none ∧ s.rxi.inflight = none ∧ s.txi.inflight = none ∧ s.active = []

end Sys2Proof.Machine
end

