-- ==== Sys2Proof/Certificates/Slice0/Obligations.lean ====
section
/-! DEFINITION. The statements for the provers, from the numbered rules of spec/. Each docstring names the
rule it formalises. "The model's choice" marks a clause that rests on a log entry. -/

open Sys2Proof Sys2Proof.Machine

/-! ## Encoding (30_encoding.md) -/

/-- R64: no bit of an encoding is dropped. Every operation, with every operand. -/
def Obligations.DecodeOfEncodeIsTheOperation : Prop :=
  ∀ i : Instr, decode (encode i) = .instr i

/-- R64, R67: a code that decodes is the code of the operation it decodes to, belongs to that operation's row
(`cc & mask == match`), and is well formed; and every well-formed code decodes. -/
def Obligations.DecodedCodeIsTheOperationsCode : Prop :=
  ∀ c : Command,
    (∀ i, decode c = .instr i →
      codeOf i = c.cc ∧ c.cc &&& (rowOf i).2 = (rowOf i).1 ∧ c.wellFormed = true) ∧
    (c.wellFormed = true → ∃ i, decode c = .instr i)

/-- R67: the reserved codes are the three kinds of the rule, 239 in number, and presenting one is refused,
whole or by micro-steps (a refusal is no next state, so no state changes). -/
def Obligations.ReservedCodesAreRefused : Prop :=
  (∀ c : Command,
    (∃ why, decode c = .reserved why) ↔
      (c.cc >>> 5 ≠ 0#8 ∨ c.cc &&& 0x0F#8 ∈ [0x06#8, 0x07#8, 0x0D#8, 0x0E#8, 0x0F#8] ∨
        (c.cc &&& 0x0F#8 ∈ [0x08#8, 0x09#8, 0x0A#8, 0x0B#8, 0x0C#8] ∧ c.cc &&& 0x10#8 ≠ 0#8))) ∧
  (List.range 256).countP (fun w => (decodeTableWord 8 w).isNone) = 239 ∧
  (∀ (c : Command) (s : State) (a : Agent) (rest : List Event) (why : DecodeError),
    decode c = .reserved why →
      step { s with todo := .issue a c :: rest } = .refused (.reservedCode c.cc) ∧
      step { s with todo := .start a c :: rest } = .refused (.reservedCode c.cc))

/-- R64: words of the opcode map written out, each decoding to the operation it stands for (R61: bit 4 is
`SEL`, bits 3:0 `OP`), with the operands presented beside it. -/
def Obligations.OpcodeMapWordsDecode : Prop :=
  ∀ o : Operands,
    decode ⟨0b00000000#8, o⟩ = .instr (.init .inbound) ∧
    decode ⟨0b00010001#8, o⟩ = .instr (.enq .outbound o.av o.payload) ∧
    decode ⟨0b00000010#8, o⟩ = .instr (.deq .inbound o.av o.maxCount) ∧
    decode ⟨0b00010011#8, o⟩ = .instr (.empty .outbound) ∧
    decode ⟨0b00001000#8, o⟩ = .instr .tinit ∧
    decode ⟨0b00001001#8, o⟩ = .instr (.write o.av o.payload) ∧
    decode ⟨0b00001011#8, o⟩ = .instr .rxirq ∧
    decode ⟨0b00001100#8, o⟩ = .instr .txirq

/-! ## A step runs the decoded operation -/

/-- A step on an issued command is `exec` of the operation its code decodes to, with the issuer set and the
move taken off the tape; a started command is `start` of it; a micro-step is `tick`; on an empty tape nothing
happens (the tape is the model's choice, log 6). -/
def Obligations.StepRunsTheDecodedOperation : Prop :=
  ∀ (s : State) (a : Agent) (c : Command) (i : Instr) (rest : List Event), decode c = .instr i →
    step { s with todo := .issue a c :: rest } = exec i { s with issuer := a, todo := rest } ∧
    step { s with todo := .start a c :: rest } = start i { s with issuer := a, todo := rest } ∧
    step { s with todo := .tick a :: rest } = tick a { s with todo := rest } ∧
    step { s with todo := [] } = .next { s with todo := [] }

/-- A word of the table that decodes and is placed in any state is run by the very next step, and completes
(withFetchWord is the model's choice, log 22). -/
def Obligations.PlacedWordRunsAndCompletes : Prop :=
  ∀ (s : State) (w : Nat) (i : Instr), decodeTableWord 8 w = some i →
    step (s.withFetchWord 8 w) = exec i ((s.stage (some i)).present i.usualAgent s.todo) ∧
    ∃ t, step (s.withFetchWord 8 w) = .next t

/-! ## The observers (40_buffer_ops.md R95 to R97) -/

/-- R95: `EMPTY.f` returns `count == 0` and writes nothing but the result, for every agent that may call
it; a handler that calls it inside its activation keeps its record (who may call: log 13). -/
def Obligations.EmptyReportsCountZero : Prop :=
  (codeOf (.empty .inbound) = 0x03#8 ∧ codeOf (.empty .outbound) = 0x13#8) ∧
  ∀ (f : Inst) (s : State), s.ObserverReady f →
    exec (.empty f) s = .next (s.setAgent s.issuer
      { s.agent s.issuer with result := some (.bool (decide ((s.buf f).count = 0))) })

/-- R96: `FULL.f` returns `count == C`, whatever the stored flag holds, and writes nothing but the result. -/
def Obligations.FullReportsCountEqualsCapacity : Prop :=
  (codeOf (.full .inbound) = 0x04#8 ∧ codeOf (.full .outbound) = 0x14#8) ∧
  ∀ (f : Inst) (s : State), s.ObserverReady f →
    exec (.full f) s = .next (s.setAgent s.issuer
      { s.agent s.issuer with result := some (.bool (decide ((s.buf f).count = 2 ^ (s.buf f).k))) })

/-- R97: `LEN.f` returns `count`, which is in `[0, C]` where the invariant holds, and writes nothing but the
result. -/
def Obligations.LenReportsCount : Prop :=
  (codeOf (.len .inbound) = 0x05#8 ∧ codeOf (.len .outbound) = 0x15#8) ∧
  ∀ (f : Inst) (s : State), s.ObserverReady f →
    exec (.len f) s = .next (s.setAgent s.issuer
      { s.agent s.issuer with result := some (.count (s.buf f).count) }) ∧
    (s.Inv → (s.buf f).count ≤ 2 ^ (s.buf f).k)

/-! ## INIT, ENQ, DEQ (40_buffer_ops.md) -/

/-- R31: `INIT` puts its instance in the empty state and `TINIT` does so for both, whatever they held. No slot of
storage is written (R33); `TINIT` disables the transmit interrupt (T3: R34, R111, the spec's decision D18). All
else is unchanged but for the boot flags and the place of the result, which are the model's choice (log 12, log
14). -/
def Obligations.InitAndTinitEnterTheEmptyState : Prop :=
  (∀ (f : Inst) (s : State), s.FgReady → s.booted = false →
    exec (.init f) s = .next
      (((s.setBuf f { s.buf f with widx := 0, ridx := 0, count := 0, full := false }).setInitialised f true).setAgent
        .fg { inflight := none, result := some .nothing })) ∧
  (∀ s : State, s.FgReady → s.booted = false →
    exec .tinit s = .next
      { s with
        inb := { s.inb with widx := 0, ridx := 0, count := 0, full := false }
        outb := { s.outb with widx := 0, ridx := 0, count := 0, full := false }
        per := { s.per with txIrqEn := false }
        booted := true, initIn := true, initOut := true
        fg := { inflight := none, result := some .nothing } })

/-- R102: the sequential meaning over `contents(f)`, for a buffer with no overlapping step of the other side:
`ENQ` appends the first `a = min(len p, C - len)` bytes and returns `a`; `DEQ` removes the first
`r = min(m, len)` and returns them; `INIT` empties. After each, the flag says what the count says, and the
indices have advanced by `a` and `r` modulo C. -/
def Obligations.SequentialMeaningOverContents : Prop :=
  ∀ (f : Inst) (s : State), s.BenchReady f → (s.buf f).InRange → RingOk (s.buf f) none none →
    (s.buf f).FlagOk →
    (∀ p : List Byte, ∃ b' : Buffer,
      let a := min p.length ((s.buf f).cap - ((s.buf f).contents f).length)
      exec (.enq f true p) s = .next ((s.setBuf f b').setAgent .fg
        { inflight := none, result := some (.accepted a) }) ∧
      b'.contents f = (s.buf f).contents f ++ p.take a ∧ b'.FlagOk ∧ b'.k = (s.buf f).k ∧
      b'.widx = ((s.buf f).widx + a) % (s.buf f).cap ∧ b'.ridx = (s.buf f).ridx) ∧
    (∀ m : Nat, ∃ b' : Buffer,
      let r := min m ((s.buf f).contents f).length
      exec (.deq f true m) s = .next ((s.setBuf f b').setAgent .fg
        { inflight := none, result := some (.removed (((s.buf f).contents f).take r) r) }) ∧
      b'.contents f = ((s.buf f).contents f).drop r ∧ b'.FlagOk ∧ b'.k = (s.buf f).k ∧
      b'.widx = (s.buf f).widx ∧ b'.ridx = ((s.buf f).ridx + r) % (s.buf f).cap) ∧
    (∃ b' : Buffer,
      exec (.init f) s = .next (((s.setBuf f b').setInitialised f true).setAgent .fg
        { inflight := none, result := some .nothing }) ∧
      b'.contents f = [] ∧ b'.FlagOk ∧ b'.k = (s.buf f).k)

/-- R94: a null argument (`av = 0`) moves nothing, whatever the other operands and the buffer: `ENQ` returns 0
and `DEQ` the empty sequence and 0. -/
def Obligations.NullArgumentMovesNothing : Prop :=
  ∀ (f : Inst) (s : State), s.BenchReady f →
    (∀ p : List Byte, exec (.enq f false p) s =
      .next (s.setAgent .fg { inflight := none, result := some (.accepted 0) })) ∧
    (∀ m : Nat, exec (.deq f false m) s =
      .next (s.setAgent .fg { inflight := none, result := some (.removed [] 0) }))

/-- R86 and the second half of R41, with the frame: a batch `ENQ` accepts as many bytes as there is room for;
byte `j` of the payload is in slot `(w0 + j) & (C-1)`; every other slot reads as before; the read index and the
capacity are unchanged, and nothing outside the instance but the result. -/
def Obligations.EnqStoresItsBytesAndNothingElse : Prop :=
  ∀ (f : Inst) (p : List Byte) (s : State), s.BenchReady f → (s.buf f).InRange →
    ∃ (b' : Buffer) (n : Nat),
      exec (.enq f true p) s = .next ((s.setBuf f b').setAgent .fg
        { inflight := none, result := some (.accepted n) }) ∧
      n = min p.length ((s.buf f).cap - (s.buf f).count) ∧
      (∀ j, j < n → memRead b'.mem (((s.buf f).widx + j) &&& ((s.buf f).cap - 1)) = p[j]?) ∧
      (∀ i, (∀ j, j < n → i ≠ ((s.buf f).widx + j) &&& ((s.buf f).cap - 1)) →
        memRead b'.mem i = memRead (s.buf f).mem i) ∧
      b'.ridx = (s.buf f).ridx ∧ b'.k = (s.buf f).k ∧ b'.count = (s.buf f).count + n ∧
      (n = 0 → b' = s.buf f)

/-- R92, with the frame: a batch `DEQ` removes at most `max_count` bytes and at most `count`; no slot is
written, and the write index and the capacity are unchanged; a `DEQ` that removes no byte writes nothing
(R91). -/
def Obligations.DeqWritesNoSlot : Prop :=
  ∀ (f : Inst) (m : Nat) (s : State), s.BenchReady f →
    ∃ (b' : Buffer) (out : List Byte),
      exec (.deq f true m) s = .next ((s.setBuf f b').setAgent .fg
        { inflight := none, result := some (.removed out out.length) }) ∧
      out.length = min m (s.buf f).count ∧
      b'.mem = (s.buf f).mem ∧ b'.widx = (s.buf f).widx ∧ b'.k = (s.buf f).k ∧
      b'.count = (s.buf f).count - out.length ∧
      (out = [] → b' = s.buf f) ∧ (out ≠ [] → b'.full = false)

/-- PES §8, FIFO order and wraparound (95_test_vectors.md S3, S6; 20_memory.md R58): on an empty buffer with
its indices anywhere, enqueueing at most C bytes and then dequeueing as many returns exactly those bytes. -/
def Obligations.EnqueuedBytesComeBackInOrder : Prop :=
  ∀ (f : Inst) (p : List Byte) (s : State), s.BenchReady f → (s.buf f).InRange →
    RingOk (s.buf f) none none → (s.buf f).count = 0 → p.length ≤ (s.buf f).cap →
    ∃ t u, exec (.enq f true p) s = .next t ∧ exec (.deq f true p.length) t = .next u ∧
      u.fg.result = some (.removed p p.length) ∧ (u.buf f).count = 0

/-- R100: over every sequence of `ENQ`, `DEQ` and `INIT` on one buffer, the length equals the bytes enqueued
minus the bytes dequeued since the last `INIT`, and stays within `[0, C]`; and no operation of it stops. -/
def Obligations.LengthIsEnqueuedMinusDequeued : Prop :=
  ∀ (f : Inst) (ops : List Instr) (s : State) (e d : Nat), s.BenchReady f → (s.buf f).InRange →
    (∀ i ∈ ops, movesBytes f i) → (s.buf f).count + d = e →
    ∃ t e' d', account ops s e d = some (t, e', d') ∧
      (t.buf f).count + d' = e' ∧ (t.buf f).count ≤ (t.buf f).cap

/-- R10, R80: an operation on one instance neither reads nor writes anything of the other. -/
def Obligations.InstancesAreIndependent : Prop :=
  ∀ (i : Instr) (f g : Inst) (s : State) (b : Buffer), bufferOf i = some f → g ≠ f →
    (∀ t, exec i s = .next t →
      t.buf g = s.buf g ∧ exec i (s.setBuf g b) = .next (t.setBuf g b)) ∧
    (∀ r, exec i s = .refused r → exec i (s.setBuf g b) = .refused r)

/-! ## WRITE and READ1 (41_transport_foreground.md) -/

/-- R112, R114, R116: with room for the payload, `WRITE` enqueues all of it, enables the transmit interrupt and
returns `OK`; nothing else changes. -/
def Obligations.WriteEnqueuesAllAndEnables : Prop :=
  ∀ (p : List Byte) (s : State), s.TransportReady → p.length ≤ s.outb.free → s.outb.InRange →
    RingOk s.outb none none →
    ∃ b' : Buffer,
      exec (.write true p) s = .next
        { s with
          outb := b'
          per := { s.per with txIrqEn := true }
          fg := { inflight := none, result := some (.status .ok) } } ∧
      b'.contents .outbound = s.outb.contents .outbound ++ p ∧ b'.ridx = s.outb.ridx ∧ b'.k = s.outb.k ∧
      (∀ i, (∀ j, j < p.length → i ≠ (s.outb.widx + j) &&& (s.outb.cap - 1)) →
        memRead b'.mem i = memRead s.outb.mem i)

/-- R115, R117 (c): with too little room, `WRITE` is held at W1 with nothing else changed, and re-reading the
count there changes nothing; more than C bytes never have room. -/
def Obligations.WriteIsHeldWithoutRoom : Prop :=
  (∀ (p : List Byte) (s : State), s.TransportReady → s.outb.free < p.length →
    exec (.write true p) s = .next
      { s with fg := { inflight := some (.write true p .w1), result := none } }) ∧
  (∀ (p : List Byte) (s : State), s.fg = { inflight := some (.write true p .w1), result := none } →
    s.active = [] → s.outb.free < p.length → tick .fg s = .next s) ∧
  (∀ (p : List Byte) (s : State), s.outb.cap < p.length → s.outb.free < p.length)

/-- R157 (second half), R117 (e): `WRITE null` returns `FAIL` at once, even when there is no room, and changes
nothing else. -/
def Obligations.WriteNullFailsAtOnce : Prop :=
  ∀ (p : List Byte) (s : State), s.TransportReady →
    exec (.write false p) s = .next
      { s with fg := { inflight := none, result := some (.status .fail) } }

/-- R119: whatever anybody does, nothing leaves W1 but the foreground seeing the room it waits for. -/
def Obligations.OnlyRoomEndsTheWait : Prop :=
  ∀ (av : Bool) (p : List Byte) (s t : State), s.fg.inflight = some (.write av p .w1) → step s = .next t →
    t.fg.inflight = some (.write av p .w1) ∨
    (p.length ≤ s.outb.free ∧ t.fg.inflight = some (.write av p (.w2 { accepted := 0, pos := .q0 })))

/-- R117 (c): a `WRITE` of more than C bytes never returns, whatever the other agents and the peripheral do,
for however long. -/
def Obligations.OversizedWriteNeverReturns : Prop :=
  ∀ (n : Nat) (av : Bool) (p : List Byte) (s t : State), s.fg.inflight = some (.write av p .w1) →
    s.outb.cap < p.length → Host.Core.run core n s = .next t → t.fg.inflight = some (.write av p .w1)

/-- R115, what lifts the hold: in an assembled transport the free space of `OUT` grows only by the decrement D3
of a `TXIRQ` activation (or a whole activation), and by nothing else. -/
def Obligations.OnlyTheTransmitPathMakesRoom : Prop :=
  ∀ s t : State, s.Inv → s.booted = true → step s = .next t → s.outb.free < t.outb.free →
    (∃ rest r x, s.todo = .tick .txi :: rest ∧ s.txi.inflight = some (.txirq (.tx1 r)) ∧ r.pos = .d3 x) ∨
    (∃ c rest, s.todo = .issue .txi c :: rest ∧ decode c = .instr .txirq)

/-- R118: `READ1` on an empty `IN` returns none and changes nothing; else it returns the oldest byte, which is
no longer unread, and no slot is written. It never waits. -/
def Obligations.ReadTakesTheOldestByte : Prop :=
  ∀ s : State, s.TransportReady →
    (s.inb.count = 0 →
      exec .read1 s = .next { s with fg := { inflight := none, result := some (.byte none) } }) ∧
    (s.inb.count ≠ 0 → s.inb.InRange →
      ∃ x rest, s.inb.contents .inbound = x :: rest ∧
        exec .read1 s = .next
          { s with
            inb := { s.inb with ridx := (s.inb.ridx + 1) &&& (s.inb.cap - 1), count := s.inb.count - 1, full := false }
            fg := { inflight := none, result := some (.byte (some x)) } } ∧
        ({ s.inb with ridx := (s.inb.ridx + 1) &&& (s.inb.cap - 1), count := s.inb.count - 1, full := false } : Buffer).contents
          .inbound = rest)

/-! ## RXIRQ and TXIRQ (42_transport_interrupt.md) -/

/-- R135 (and R157, first half): with a line error the activation reads the data, acknowledges, discards the
byte and changes nothing else, full or not: the buffer is not examined and nothing is recorded. -/
def Obligations.LineErrorDiscardsTheByte : Prop :=
  ∀ s : State, s.RxReady → s.per.rxErr = true →
    exec .rxirq s = .next
      { s with
        per := { s.per with rxReady := false, rxErr := false }
        rxi := { inflight := none, result := some .nothing } }

/-- R133: without a line error, a byte that finds `IN` full is dropped: the read clears `rx_ready`, no byte of
`IN` is overwritten, and nothing counts the loss. -/
def Obligations.FullInboundDropsTheByte : Prop :=
  ∀ s : State, s.RxReady → s.per.rxErr = false → s.inb.count = s.inb.cap →
    exec .rxirq s = .next
      { s with
        per := { s.per with rxReady := false }
        rxi := { inflight := none, result := some .nothing } }

/-- R131, R132: without a line error and with room, the byte goes to the slot of the write index, the index
advances, the count rises by one and the flag is recomputed; every other slot reads as before and nothing else
changes; over the contents, the byte is appended. -/
def Obligations.ReceivedByteIsStored : Prop :=
  ∀ s : State, s.RxReady → s.per.rxErr = false → s.inb.count < s.inb.cap →
    ∃ b' : Buffer,
      exec .rxirq s = .next
        { s with
          inb := b'
          per := { s.per with rxReady := false }
          rxi := { inflight := none, result := some .nothing } } ∧
      b'.k = s.inb.k ∧ b'.ridx = s.inb.ridx ∧ b'.widx = (s.inb.widx + 1) &&& (s.inb.cap - 1) ∧
      b'.count = s.inb.count + 1 ∧ b'.full = decide (s.inb.count + 1 = s.inb.cap) ∧
      memRead b'.mem s.inb.widx = some s.per.rxData ∧
      (∀ i, i ≠ s.inb.widx → memRead b'.mem i = memRead s.inb.mem i) ∧
      (s.inb.InRange → RingOk s.inb none none →
        b'.contents .inbound = s.inb.contents .inbound ++ [s.per.rxData])

/-- R134: a `TXIRQ` that finds a byte hands the oldest one to the peripheral and leaves the interrupt enabled,
also when it was the last one; no slot is written and nothing else changes. -/
def Obligations.TransmitSendsTheOldestByte : Prop :=
  ∀ s : State, s.TxReady → s.outb.count ≠ 0 → s.outb.InRange →
    ∃ x rest, s.outb.contents .outbound = x :: rest ∧
      exec .txirq s = .next
        { s with
          outb := { s.outb with ridx := (s.outb.ridx + 1) &&& (s.outb.cap - 1), count := s.outb.count - 1, full := false }
          per := { s.per with txData := x, txEmpty := false }
          txi := { inflight := none, result := some .nothing } } ∧
      ({ s.outb with ridx := (s.outb.ridx + 1) &&& (s.outb.cap - 1), count := s.outb.count - 1, full := false } : Buffer).contents
        .outbound = rest

/-- R134: a `TXIRQ` that finds `OUT` empty disables the transmit interrupt and changes nothing else; no byte is
sent. -/
def Obligations.TransmitDisablesOnEmpty : Prop :=
  ∀ s : State, s.TxReady → s.outb.count = 0 →
    exec .txirq s = .next
      { s with
        per := { s.per with txIrqEn := false }
        txi := { inflight := none, result := some .nothing } }

/-- R138, R112: what a `WRITE` enqueues behind the bytes already in `OUT` is sent after them, each byte once and
in order; the activation after the last byte disables the interrupt. -/
def Obligations.WrittenBytesAreSentInOrder : Prop :=
  ∀ (p : List Byte) (s : State), s.TransportReady → s.txi.inflight = none → p.length ≤ s.outb.free →
    s.outb.InRange → RingOk s.outb none none →
    ∃ t u v, exec (.write true p) s = .next t ∧
      drain (s.outb.count + p.length) t = some (u, s.outb.contents .outbound ++ p) ∧
      u.outb.count = 0 ∧ u.per.txIrqEn = true ∧
      exec .txirq { u with issuer := .txi, per := { u.per with txEmpty := true } } = .next v ∧
      v.per.txIrqEn = false ∧ v.outb = u.outb

/-- R53, R156: the two handlers share no state: run one after the other, either order ends in the same state
(but for the issuer, which is the model's, log 6). -/
def Obligations.HandlersCommute : Prop :=
  ∀ s : State, s.booted = true → s.rxi.inflight = none → s.txi.inflight = none → s.per.rxReady = true →
    s.per.txEmpty = true → s.per.txIrqEn = true →
    ∃ s₁ t₁ s₂ t₂, exec .rxirq { s with issuer := .rxi } = .next s₁ ∧
      exec .txirq { s₁ with issuer := .txi } = .next t₁ ∧
      exec .txirq { s with issuer := .txi } = .next s₂ ∧
      exec .rxirq { s₂ with issuer := .rxi } = .next t₂ ∧
      { t₁ with issuer := .fg } = { t₂ with issuer := .fg }

/-- R53: a whole activation of either handler that runs inside an activation of the other, after any number of its
micro-steps, ends where the same activation before those micro-steps ends: a nested run equals a back-to-back
run. -/
def Obligations.NestedActivationEqualsBackToBack : Prop :=
  (∀ (n : Nat) (s u v w : State), start .rxirq s = .next u → ticks .rxi n u = .next v →
    exec .txirq { v with issuer := .txi } = .next w →
    ∃ v', exec .txirq { u with issuer := .txi } = .next v' ∧ ticks .rxi n v' = .next w) ∧
  (∀ (n : Nat) (s u v w : State), start .txirq s = .next u → ticks .txi n u = .next v →
    exec .rxirq { v with issuer := .rxi } = .next w →
    ∃ v', exec .rxirq { u with issuer := .rxi } = .next v' ∧ ticks .txi n v' = .next w)

/-! ## Micro-steps and whole runs (20_memory.md R51) -/

/-- The model's choice, log 7: `exec` of an operation stands for the run of R51 in which no other agent's micro-step
falls inside. This says that it is one: from its start to its return, or to the hold of `WRITE`. -/
def Obligations.ExecIsTheUninterruptedMicroRun : Prop :=
  ∀ (i : Instr) (s t : State), exec i s = .next t →
    ∃ u n, start i s = .next u ∧ ticks s.issuer n u = .next t

/-! ## The invariant of every run -/

/-- The state at power-on meets the invariant (register values: the model's choice, log 3). -/
def Obligations.PowerOnMeetsTheInvariant : Prop := State.reset.Inv

/-- R18, R20, R44, R53, R116, R132, R137 at every micro-step: from every state that meets the invariant, every
step, of any agent or the peripheral, whole or by micro-steps, gives a state that meets it. -/
def Obligations.StepKeepsTheInvariant : Prop :=
  ∀ s t : State, s.Inv → step s = .next t → t.Inv

/-- R18: at every instant of every run `0 <= count <= C`, in both instances, whatever the schedule. -/
def Obligations.CountStaysWithinCapacity : Prop :=
  ∀ (n : Nat) (s t : State) (f : Inst), s.Inv → Host.Core.run core n s = .next t →
    0 ≤ (t.buf f).count ∧ (t.buf f).count ≤ (t.buf f).cap

/-- R137: in every run of an assembled transport, whenever the foreground is not inside a `WRITE` between the
first increment of its W2 and its W4, the transmit interrupt disabled implies `OUT` empty. -/
def Obligations.DisabledTransmitMeansEmptyOutbound : Prop :=
  ∀ (n : Nat) (s t : State), s.Inv → Host.Core.run core n s = .next t → t.booted = true →
    ¬ inWriteWindow t.fg.inflight → t.per.txIrqEn = false → t.outb.count = 0

/-- R22, R54, R58: at every micro-step the abstract queue of an initialised instance stays as it is, or gets the
producer's byte appended by the increment E3, or loses its oldest byte, the one the consumer read, by the
decrement D3. So no byte is lost, duplicated or reordered under any interleaving. -/
def Obligations.MicroStepsRefineTheQueue : Prop :=
  ∀ (a : Agent) (s t : State) (f : Inst), s.Inv → tick a s = .next t → s.initialised f = true →
    t.queue f = s.queue f ∨
    (∃ r p x, s.producing f = some (r, p) ∧ r.pos = .e3 ∧ p[r.accepted]? = some x ∧
      t.queue f = s.queue f ++ [x]) ∨
    (∃ r x, s.consuming f = some r ∧ r.pos = .d3 x ∧ s.queue f = x :: t.queue f)

/-- R12, R13, R14, R46: a micro-step changes an index or the count only in the ways the rules list, each by one
slot or one byte: `INIT` sets it to 0 (I1, I2, I3), E2 and D2 advance the index by the mask, E3 adds exactly 1
and D3 subtracts exactly 1; and every one of them is in its range. -/
def Obligations.RegistersMoveOnlyAsListed : Prop :=
  ∀ (a : Agent) (s t : State) (f : Inst), s.Inv → tick a s = .next t →
    ((t.buf f).widx < (t.buf f).cap ∧ (t.buf f).ridx < (t.buf f).cap ∧ (t.buf f).count ≤ (t.buf f).cap) ∧
    ((t.buf f).widx = (s.buf f).widx ∨ (t.buf f).widx = 0 ∧ s.initialised f = false ∨
      (t.buf f).widx = ((s.buf f).widx + 1) &&& ((s.buf f).cap - 1) ∧
        ∃ r p, s.producing f = some (r, p) ∧ r.pos = .e2) ∧
    ((t.buf f).ridx = (s.buf f).ridx ∨ (t.buf f).ridx = 0 ∧ s.initialised f = false ∨
      (t.buf f).ridx = ((s.buf f).ridx + 1) &&& ((s.buf f).cap - 1) ∧
        ∃ r x, s.consuming f = some r ∧ r.pos = .d2 x) ∧
    ((t.buf f).count = (s.buf f).count ∨ (t.buf f).count = 0 ∧ s.initialised f = false ∨
      (t.buf f).count = (s.buf f).count + 1 ∧ (∃ r p, s.producing f = some (r, p) ∧ r.pos = .e3) ∨
      (t.buf f).count + 1 = (s.buf f).count ∧ ∃ r x, s.consuming f = some r ∧ r.pos = .d3 x)

/-- R44, R54: no micro-step of any agent changes a slot that holds an unread byte. The store E1 writes its byte to
the slot of the write index, which holds none of them, and to no other slot; the read D1 finds a slot that has
been written (R33), takes from it the oldest byte of the queue, carries that byte into D2, and stores nothing. -/
def Obligations.SidesNeverShareASlot : Prop :=
  ∀ (a : Agent) (s t : State) (f : Inst), s.Inv → s.initialised f = true → tick a s = .next t →
    (∀ j, j < (s.buf f).count →
      memRead (t.buf f).mem (((s.buf f).oldest (s.consuming f) + j) % (s.buf f).cap) =
        memRead (s.buf f).mem (((s.buf f).oldest (s.consuming f) + j) % (s.buf f).cap)) ∧
    (∀ o r p x, (s.agent a).inflight = some o → o.enqOn f = some (r, p) → r.pos = .e1 x →
      memRead (t.buf f).mem (s.buf f).widx = some x ∧
      (∀ i, i ≠ (s.buf f).widx → memRead (t.buf f).mem i = memRead (s.buf f).mem i) ∧
      (∀ j, j < (s.buf f).count →
        ((s.buf f).oldest (s.consuming f) + j) % (s.buf f).cap ≠ (s.buf f).widx)) ∧
    (∀ o r, (s.agent a).inflight = some o → o.deqOn f = some r → r.pos = .d1 →
      ∃ x o', memRead (s.buf f).mem (s.buf f).ridx = some x ∧ (s.queue f).head? = some x ∧
        (t.agent a).inflight = some o' ∧ o'.deqOn f = some { r with pos := .d2 x } ∧
        (t.buf f).mem = (s.buf f).mem)

/-- R116, R132: the `ENQ` inside a `WRITE` returns only `n`, and the one inside an `RXIRQ` only 1, whatever the
other side does meanwhile. -/
def Obligations.TransportEnqueuesAreWhole : Prop :=
  ∀ s : State, s.Inv →
    (∀ av p r n, s.fg.inflight = some (.write av p (.w2 r)) →
      (r.step true p s.outb).2 = .inr n → n = p.length) ∧
    (∀ x r n, s.rxi.inflight = some (.rxirq (.rx6 x r)) →
      (r.step true [x] s.inb).2 = .inr n → n = 1)

/-- R15: no operation reads the stored flag: two states that differ in the stored flags alone step to states
that differ in the stored flags alone, or are refused alike. -/
def Obligations.StoredFlagIsNeverRead : Prop :=
  ∀ s : State,
    (∀ t, step s = .next t → ∃ u, step s.eraseFull = .next u ∧ u.eraseFull = t.eraseFull) ∧
    (∀ r, step s = .refused r → step s.eraseFull = .refused r)

/-- R19, first half: operations that run whole, one after the other, keep the stored flag equal to
`count == C`. -/
def Obligations.WholeOperationsKeepTheFullFlag : Prop :=
  ∀ (i : Instr) (s t : State), s.Inv → s.Quiet → s.inb.FlagOk → s.outb.FlagOk → exec i s = .next t →
    t.inb.FlagOk ∧ t.outb.FlagOk

/-- R190: the full-flag race is a run: from a quiet state with the flag right there is a schedule to a quiet
state in which `IN` is full by the count and not by the flag. -/
def Obligations.FullFlagRaceIsARun : Prop :=
  ∃ (s t : State) (tape : List Event), s.Inv ∧ s.Quiet ∧ s.inb.FlagOk ∧ s.booted = true ∧
    Host.Core.run core tape.length { s with todo := tape } = .next t ∧
    t.Quiet ∧ t.inb.count = t.inb.cap ∧ t.inb.full = false

/-- The model's choice, log 5: storage (R11, R40) is a list of the slots written, slots strictly rising. Both
instances' storage stays in that canonical form under every step, from every state. -/
def Obligations.StorageStaysCanonical : Prop :=
  ∀ s t : State, memWf s.inb.mem = true → memWf s.outb.mem = true → step s = .next t →
    memWf t.inb.mem = true ∧ memWf t.outb.mem = true

/-- R5: no step changes a capacity: it is fixed at construction, and a power of two. -/
def Obligations.CapacityIsFixed : Prop :=
  ∀ (s t : State) (f : Inst), step s = .next t → (t.buf f).cap = (s.buf f).cap ∧ (t.buf f).cap = 2 ^ (s.buf f).k

/-! ## Who writes what, and when (10_state.md R24, 20_memory.md R52, 60_exceptions.md) -/

/-- R24, R28: in an assembled transport each register, each storage array and each signal is written by its own
agents and no others, whole or by micro-steps, and the signals in the direction the table gives: the peripheral
alone sets `rx_ready`, `rx_err` and `tx_empty`, the inbound path clears the first two and the outbound path the
third; the foreground may set `tx_irq_en` and the outbound path may clear it. -/
def Obligations.WritersAreTheTablesWriters : Prop :=
  ∀ s t : State, s.Inv → s.booted = true → step s = .next t →
    (s.mover ≠ some .rxi → t.inb.mem = s.inb.mem ∧ t.inb.widx = s.inb.widx) ∧
    (s.mover ≠ some .fg → t.outb.mem = s.outb.mem ∧ t.outb.widx = s.outb.widx ∧ t.inb.ridx = s.inb.ridx) ∧
    (s.mover ≠ some .txi → t.outb.ridx = s.outb.ridx) ∧
    (s.mover ≠ some .rxi → s.mover ≠ some .fg → t.inb = s.inb) ∧
    (s.mover ≠ some .fg → s.mover ≠ some .txi → t.outb = s.outb) ∧
    (s.mover ≠ none → t.per.rxData = s.per.rxData) ∧
    (s.mover ≠ some .txi → t.per.txData = s.per.txData) ∧
    (s.mover ≠ none → s.mover ≠ some .rxi → t.per.rxReady = s.per.rxReady ∧ t.per.rxErr = s.per.rxErr) ∧
    (s.mover = some .rxi →
      (t.per.rxReady = true → s.per.rxReady = true) ∧ (t.per.rxErr = true → s.per.rxErr = true)) ∧
    (s.mover ≠ none → s.mover ≠ some .txi → t.per.txEmpty = s.per.txEmpty) ∧
    (s.mover = some .txi → t.per.txEmpty = true → s.per.txEmpty = true) ∧
    (s.mover = none → (s.per.rxReady = true → t.per.rxReady = true) ∧ (s.per.txEmpty = true → t.per.txEmpty = true)) ∧
    (s.mover ≠ some .fg → s.mover ≠ some .txi → t.per.txIrqEn = s.per.txIrqEn) ∧
    (s.mover = some .fg → s.per.txIrqEn = true → t.per.txIrqEn = true) ∧
    (s.mover = some .txi → t.per.txIrqEn = true → s.per.txIrqEn = true)

/-- R99, R98: free space is `C - count`, with no wrap-around where the invariant holds. Whatever anybody does, the
free space of a buffer shrinks only by its producer enqueueing (the increment E3, or a whole `WRITE` or `RXIRQ`),
and its count only by its consumer dequeueing (the decrement D3, or a whole `READ1` or `TXIRQ`). So for the
producer free space is a lower bound until it enqueues, also across its own moves that enqueue nothing, and so is
the count for the consumer until it dequeues. -/
def Obligations.FreeSpaceIsALowerBound : Prop :=
  ∀ s t : State, s.Inv → s.booted = true → step s = .next t →
    (∀ f, (s.buf f).free + (s.buf f).count = (s.buf f).cap) ∧
    (t.outb.free < s.outb.free →
      (∃ rest av p r, s.todo = .tick .fg :: rest ∧ s.fg.inflight = some (.write av p (.w2 r)) ∧ r.pos = .e3) ∨
      (∃ c rest x p, s.todo = .issue .fg c :: rest ∧ decode c = .instr (.write true (x :: p)))) ∧
    (t.inb.free < s.inb.free →
      (∃ rest x r, s.todo = .tick .rxi :: rest ∧ s.rxi.inflight = some (.rxirq (.rx6 x r)) ∧ r.pos = .e3) ∨
      (∃ c rest, s.todo = .issue .rxi c :: rest ∧ decode c = .instr .rxirq)) ∧
    (t.outb.count < s.outb.count →
      (∃ rest r x, s.todo = .tick .txi :: rest ∧ s.txi.inflight = some (.txirq (.tx1 r)) ∧ r.pos = .d3 x) ∨
      (∃ c rest, s.todo = .issue .txi c :: rest ∧ decode c = .instr .txirq)) ∧
    (t.inb.count < s.inb.count →
      (∃ rest r x, s.todo = .tick .fg :: rest ∧ s.fg.inflight = some (.read1 (.x1 r)) ∧ r.pos = .d3 x) ∨
      (∃ c rest, s.todo = .issue .fg c :: rest ∧ decode c = .instr .read1))

/-- R52: (a) an activation may begin whatever the foreground stands before, and the foreground's record is
untouched by its beginning; (b), (c) while an activation is in progress the foreground takes no step, whatever
the tape asks, and its in-flight record stays as it is. -/
def Obligations.ForegroundStandsWhileAnActivationRuns : Prop :=
  (∀ s : State, s.RxReady → ∃ t, start .rxirq s = .next t ∧ t.fg = s.fg) ∧
  (∀ s : State, s.TxReady → ∃ t, start .txirq s = .next t ∧ t.fg = s.fg) ∧
  (∀ s t : State, s.NestingOk → s.active ≠ [] → step s = .next t → t.fg = s.fg)

/-- R158, R159: entering an activation changes no register and saves nothing: the handler stands before RX1 or
TX1, innermost. Each of its returns (RX4, RX5 on a full `IN`, RX7; TX4, TX6) ends that activation and restores
nothing. -/
def Obligations.ActivationEntryAndReturnSaveNothing : Prop :=
  (∀ s : State, s.RxReady → start .rxirq s = .next
    { s with active := .rxi :: s.active, rxi := { inflight := some (.rxirq .rx1), result := none } }) ∧
  (∀ s : State, s.TxReady → start .txirq s = .next
    { s with active := .txi :: s.active, txi := { inflight := some (.txirq (.tx1 { out := [], pos := .p0 })), result := none } }) ∧
  (∀ (s : State) (rest : List Agent), s.active = .rxi :: rest →
    (s.rxi.inflight = some (.rxirq .rx4) ∨ s.rxi.inflight = some (.rxirq .rx7) ∨
      (∃ b, s.rxi.inflight = some (.rxirq (.rx5 b))) ∧ s.inb.count = s.inb.cap) →
    tick .rxi s = .next { s with active := rest, rxi := { inflight := none, result := some .nothing } }) ∧
  (∀ (s : State) (rest : List Agent), s.active = .txi :: rest →
    (s.txi.inflight = some (.txirq .tx4) ∨ s.txi.inflight = some (.txirq .tx6)) →
    tick .txi s = .next { s with active := rest, txi := { inflight := none, result := some .nothing } })

/-- R161: the interrupt context is entered by a request being served and left by the handler's return, and by
nothing else; and a handler runs its own activation, for which the request is pending, or an observer inside
that activation while it is the innermost (R68; that it is inside: log 13), and nothing else. -/
def Obligations.InterruptContextServesRequestsOnly : Prop :=
  (∀ s t : State, step s = .next t →
    t.active = s.active ∨
    (∃ c rest, s.todo = .start .rxi c :: rest ∧ decode c = .instr .rxirq ∧ s.per.rxReady = true ∧
      t.active = .rxi :: s.active) ∨
    (∃ c rest, s.todo = .start .txi c :: rest ∧ decode c = .instr .txirq ∧ s.per.txEmpty = true ∧
      s.per.txIrqEn = true ∧ t.active = .txi :: s.active) ∨
    (∃ a rest, s.todo = .tick a :: rest ∧ a ≠ .fg ∧ s.active = a :: t.active ∧ (t.agent a).inflight = none)) ∧
  (∀ (i : Instr) (s t : State), s.issuer ≠ .fg → (exec i s = .next t ∨ start i s = .next t) →
    s.booted = true ∧
    ((i = .rxirq ∧ s.issuer = .rxi ∧ s.per.rxReady = true) ∨
      (i = .txirq ∧ s.issuer = .txi ∧ s.per.txEmpty = true ∧ s.per.txIrqEn = true) ∨
      ((∃ f, i = .empty f ∨ i = .full f ∨ i = .len f) ∧ s.active.head? = some s.issuer ∧ t.active = s.active ∧
        (t.agent s.issuer).inflight = (s.agent s.issuer).inflight)))

/-- R153, R154: an activation runs only when its request is pending, and clears it: after an `RXIRQ` `rx_ready`
is false; after a `TXIRQ` `tx_empty` or the enable is. -/
def Obligations.ActivationNeedsAndClearsItsRequest : Prop :=
  ∀ s t : State,
    (exec .rxirq s = .next t → s.per.rxReady = true ∧ s.booted = true ∧ t.per.rxReady = false) ∧
    (exec .txirq s = .next t →
      s.per.txEmpty = true ∧ s.per.txIrqEn = true ∧ s.booted = true ∧ (t.per.txEmpty && t.per.txIrqEn) = false) ∧
    (start .rxirq s = .next t → s.per.rxReady = true ∧ s.booted = true) ∧
    (start .txirq s = .next t → s.per.txEmpty = true ∧ s.per.txIrqEn = true ∧ s.booted = true)

/-- R136, R73: `WRITE` is the only transition from Idle to Draining, at W4, and `TXIRQ` the only one from
Draining to Idle, at TX5, once `TINIT` has returned. -/
def Obligations.OnlyWriteAndTxirqSwitchTransmit : Prop :=
  ∀ s t : State, s.Inv → s.booted = true → step s = .next t →
    (s.per.txIrqEn = false → t.per.txIrqEn = true →
      (∃ rest av p, s.todo = .tick .fg :: rest ∧ s.fg.inflight = some (.write av p .w4)) ∨
      (∃ c rest p, s.todo = .issue .fg c :: rest ∧ decode c = .instr (.write true p))) ∧
    (s.per.txIrqEn = true → t.per.txIrqEn = false →
      (∃ rest, s.todo = .tick .txi :: rest ∧ s.txi.inflight = some (.txirq .tx5)) ∨
      (∃ c rest, s.todo = .issue .txi c :: rest ∧ decode c = .instr .txirq ∧ s.outb.count = 0))

/-- R160 (a), (b), (c): the peripheral's two moves and all they change. That it has no `receive` while `rx_ready`
is true and no `transmit` while `tx_empty` is true is the model's choice, log 15: R160 (e) leaves a second byte
to the peripheral. -/
def Obligations.PeripheralMovesOnlyItsSignals : Prop :=
  ∀ (s : State) (b : Byte) (e : Bool) (rest : List Event),
    (s.per.rxReady = false → step { s with todo := .receive b e :: rest } =
      .next { s with todo := rest, per := { s.per with rxReady := true, rxData := b, rxErr := e } }) ∧
    (s.per.rxReady = true → step { s with todo := .receive b e :: rest } = .refused .perNotReady) ∧
    (s.per.txEmpty = false → step { s with todo := .transmit :: rest } =
      .next { s with todo := rest, per := { s.per with txEmpty := true } }) ∧
    (s.per.txEmpty = true → step { s with todo := .transmit :: rest } = .refused .perNotReady)

/-- R68, R50, R197: an operation goes on only when issued by an agent the table allows, one at a time: the
foreground has nothing in flight and is not preempted, and an agent with an operation in flight issues nothing
but an observer (a handler inside its activation: log 13). -/
def Obligations.OnlyAllowedAgentsIssue : Prop :=
  ∀ (i : Instr) (s t : State), (exec i s = .next t ∨ start i s = .next t) →
    mayIssue i s.issuer = true ∧ (s.issuer = .fg → s.fg.inflight = none ∧ s.active = []) ∧
    ((s.agent s.issuer).inflight ≠ none → s.issuer ≠ .fg ∧ ∃ f, i = .empty f ∨ i = .full f ∨ i = .len f)

/-- R32, R181: an operation on an instance that is not initialised is refused, but for its `INIT`, whatever the other
instance is; with nothing initialised so is every operation but `TINIT` and `INIT`; before `TINIT` has returned so
is every operation and activation of the transport; a second `TINIT`, and an `INIT` in an assembled transport, are
refused (R82, R111). -/
def Obligations.NothingRunsBeforeInitialisation : Prop :=
  (∀ (i : Instr) (f : Inst) (s : State), bufferOf i = some f → s.initialised f = false → i ≠ .init f →
    ∃ r, exec i s = .refused r ∧ start i s = .refused r) ∧
  (∀ (i : Instr) (s : State), s.booted = false → s.initIn = false → s.initOut = false →
    i ≠ .tinit → (∀ f, i ≠ .init f) → ∃ r, exec i s = .refused r ∧ start i s = .refused r) ∧
  (∀ (i : Instr) (s : State), s.booted = false →
    (i = .read1 ∨ i = .rxirq ∨ i = .txirq ∨ ∃ av p, i = .write av p) →
    ∃ r, exec i s = .refused r ∧ start i s = .refused r) ∧
  (∀ (i : Instr) (s : State), s.booted = true → (i = .tinit ∨ ∃ f, i = .init f) →
    ∃ r, exec i s = .refused r ∧ start i s = .refused r)

/-- R68, R4: in an assembled transport `ENQ` and `DEQ` occur only inside the transport's own operations, so
presenting one from outside is refused by name, whole or by micro-steps, whatever else holds (log 10). -/
def Obligations.BufferCodesStayInsideTheTransport : Prop :=
  ∀ (f : Inst) (av : Bool) (p : List Byte) (m : Nat) (s : State), s.booted = true →
    exec (.enq f av p) s = .refused .transportOnly ∧ start (.enq f av p) s = .refused .transportOnly ∧
    exec (.deq f av m) s = .refused .transportOnly ∧ start (.deq f av m) s = .refused .transportOnly

/-- PES §8, end to end (95_test_vectors.md S8, 90_conflicts.md C5): on an empty, capacity-8 outbound buffer
`WRITE ["o", "k"]` succeeds at once with length 2; the first firing sends "o", the second "k" and leaves the
interrupt enabled, the third finds the buffer empty and disables it. -/
def Obligations.EndToEndAtCapacityEight : Prop :=
  ∀ s : State, s.TransportReady → s.txi.inflight = none → s.outb = Buffer.powerOn 3 → s.per.txIrqEn = false →
    ∃ t u₁ u₂ u₃, exec (.write true [0x6F#8, 0x6B#8]) s = .next t ∧
      t.fg.result = some (.status .ok) ∧ t.outb.count = 2 ∧ t.per.txIrqEn = true ∧
      drain 1 t = some (u₁, [0x6F#8]) ∧ u₁.outb.count = 1 ∧ u₁.per.txIrqEn = true ∧
      drain 1 u₁ = some (u₂, [0x6B#8]) ∧ u₂.outb.count = 0 ∧ u₂.per.txIrqEn = true ∧
      exec .txirq { u₂ with issuer := .txi, per := { u₂.per with txEmpty := true } } = .next u₃ ∧
      u₃.per.txIrqEn = false ∧ u₃.per.txData = 0x6B#8 ∧ u₃.outb = u₂.outb
end

