-- ==== Sys2Proof/Laws/Memory.lean ====
section
/-! SUPPORT. The laws of storage: a read after a write, the other slots unchanged, and the canonical form
kept by every write. -/

namespace Sys2Proof.Machine

theorem memRead_memWrite_same (m : List Host.Cell) (i : Nat) (v : Byte) :
    memRead (memWrite m i v) i = some v := by
  induction m with
  | nil => simp [memWrite, memRead]
  | cons c rest ih =>
    obtain ⟨a, w⟩ := c
    simp only [memWrite]
    split
    · simp [memRead]
    · split
      · simp [memRead]
      · rename_i h
        simp [memRead, h, ih]

theorem memRead_memWrite_of_ne (m : List Host.Cell) {i j : Nat} (v : Byte) (h : j ≠ i) :
    memRead (memWrite m i v) j = memRead m j := by
  induction m with
  | nil => simp [memWrite, memRead, h]
  | cons c rest ih =>
    obtain ⟨a, w⟩ := c
    simp only [memWrite]
    split
    · simp [memRead, h]
    · split
      · rename_i ha
        subst ha
        simp [memRead, h]
      · simp only [memRead, ih]

theorem memRead_memWrite (m : List Host.Cell) (i j : Nat) (v : Byte) :
    memRead (memWrite m i v) j = if j = i then some v else memRead m j := by
  split
  · rename_i h; subst h; exact memRead_memWrite_same m j v
  · rename_i h; exact memRead_memWrite_of_ne m v h

theorem memSortedFrom_memWrite (m : List Host.Cell) {lo i : Nat} (v : Byte) (hi : lo ≤ i)
    (h : memSortedFrom lo m = true) : memSortedFrom lo (memWrite m i v) = true := by
  induction m generalizing lo with
  | nil => simp [memWrite, memSortedFrom, hi]
  | cons c rest ih =>
    obtain ⟨a, w⟩ := c
    simp only [memSortedFrom, Bool.and_eq_true, decide_eq_true_eq] at h
    simp only [memWrite]
    split
    · rename_i hlt
      simp only [memSortedFrom, Bool.and_eq_true, decide_eq_true_eq]
      exact ⟨hi, hlt, h.2⟩
    · split
      · rename_i he
        subst he
        simpa [memSortedFrom] using h
      · simp only [memSortedFrom, Bool.and_eq_true, decide_eq_true_eq]
        exact ⟨h.1, ih (by omega) h.2⟩

/-- A write keeps the canonical form. -/
theorem memWf_memWrite (m : List Host.Cell) (i : Nat) (v : Byte) (h : memWf m = true) :
    memWf (memWrite m i v) = true :=
  memSortedFrom_memWrite m v (Nat.zero_le i) h

/-- A write lists no slot but those listed before and the one written. -/
theorem mem_memWrite (m : List Host.Cell) (i : Nat) (v : Byte) (c : Host.Cell)
    (h : c ∈ memWrite m i v) : c ∈ m ∨ c.1 = i := by
  induction m with
  | nil =>
    simp only [memWrite, List.mem_singleton] at h
    exact .inr (by rw [h])
  | cons d rest ih =>
    obtain ⟨a, w⟩ := d
    simp only [memWrite] at h
    split at h
    · rcases List.mem_cons.mp h with rfl | h
      · exact .inr rfl
      · exact .inl h
    · split at h
      · rcases List.mem_cons.mp h with rfl | h
        · exact .inr rfl
        · exact .inl (List.mem_cons_of_mem _ h)
      · rcases List.mem_cons.mp h with rfl | h
        · exact .inl (List.mem_cons_self ..)
        · exact (ih h).imp_left (List.mem_cons_of_mem _)

/-- Reading a slot right after it was stored to gives the byte stored (R11, R43). -/
theorem Buffer.readSlot_e1_same (f : Inst) (b : Buffer) (x : Byte) :
    (b.e1 x).readSlot f b.widx = x := by
  simp [Buffer.readSlot, Buffer.e1, memRead_memWrite_same]

/-- A store leaves every other slot as it was (R11, R43). -/
theorem Buffer.readSlot_e1_of_ne (f : Inst) (b : Buffer) (x : Byte) {i : Nat} (h : i ≠ b.widx) :
    (b.e1 x).readSlot f i = b.readSlot f i := by
  simp [Buffer.readSlot, Buffer.e1, memRead_memWrite_of_ne _ _ h]

end Sys2Proof.Machine
end

