-- ==== Sys2Proof/Laws/Buffer.lean ====
section
/-! SUPPORT. What the per-byte steps and the batches of one buffer can do, said once. -/

namespace Sys2Proof.Machine

theorem Buffer.cap_pos (b : Buffer) : 0 < b.cap := Nat.two_pow_pos b.k

/-- The mask is the remainder, because the capacity is a power of two (10_state.md R21). -/
theorem Buffer.mask_eq_mod (b : Buffer) (x : Nat) : x &&& (b.cap - 1) = x % b.cap :=
  Nat.and_two_pow_sub_one_eq_mod x b.k

theorem Buffer.advance_eq (b : Buffer) (x : Nat) : b.advance x = (x + 1) % b.cap :=
  b.mask_eq_mod (x + 1)

theorem Buffer.advance_lt (b : Buffer) (x : Nat) : b.advance x < b.cap := by
  rw [b.advance_eq]; exact Nat.mod_lt _ b.cap_pos

theorem Buffer.isFull_iff (b : Buffer) : b.isFull = true ↔ b.count = b.cap := by
  simp [Buffer.isFull]

theorem Buffer.isEmpty_iff (b : Buffer) : b.isEmpty = true ↔ b.count = 0 := by
  simp [Buffer.isEmpty]

/-! ## The micro-operations, field by field -/

@[simp] theorem Buffer.k_e1 (b : Buffer) (x : Byte) : (b.e1 x).k = b.k := rfl
@[simp] theorem Buffer.widx_e1 (b : Buffer) (x : Byte) : (b.e1 x).widx = b.widx := rfl
@[simp] theorem Buffer.ridx_e1 (b : Buffer) (x : Byte) : (b.e1 x).ridx = b.ridx := rfl
@[simp] theorem Buffer.count_e1 (b : Buffer) (x : Byte) : (b.e1 x).count = b.count := rfl
@[simp] theorem Buffer.full_e1 (b : Buffer) (x : Byte) : (b.e1 x).full = b.full := rfl
@[simp] theorem Buffer.mem_e1 (b : Buffer) (x : Byte) : (b.e1 x).mem = memWrite b.mem b.widx x := rfl
@[simp] theorem Buffer.cap_e1 (b : Buffer) (x : Byte) : (b.e1 x).cap = b.cap := rfl
@[simp] theorem Buffer.k_e2 (b : Buffer) : b.e2.k = b.k := rfl
@[simp] theorem Buffer.widx_e2 (b : Buffer) : b.e2.widx = b.advance b.widx := rfl
@[simp] theorem Buffer.ridx_e2 (b : Buffer) : b.e2.ridx = b.ridx := rfl
@[simp] theorem Buffer.count_e2 (b : Buffer) : b.e2.count = b.count := rfl
@[simp] theorem Buffer.full_e2 (b : Buffer) : b.e2.full = b.full := rfl
@[simp] theorem Buffer.mem_e2 (b : Buffer) : b.e2.mem = b.mem := rfl
@[simp] theorem Buffer.cap_e2 (b : Buffer) : b.e2.cap = b.cap := rfl
@[simp] theorem Buffer.k_e3 (b : Buffer) : b.e3.k = b.k := rfl
@[simp] theorem Buffer.widx_e3 (b : Buffer) : b.e3.widx = b.widx := rfl
@[simp] theorem Buffer.ridx_e3 (b : Buffer) : b.e3.ridx = b.ridx := rfl
@[simp] theorem Buffer.count_e3 (b : Buffer) : b.e3.count = b.count + 1 := rfl
@[simp] theorem Buffer.full_e3 (b : Buffer) : b.e3.full = b.full := rfl
@[simp] theorem Buffer.mem_e3 (b : Buffer) : b.e3.mem = b.mem := rfl
@[simp] theorem Buffer.cap_e3 (b : Buffer) : b.e3.cap = b.cap := rfl
@[simp] theorem Buffer.k_e4 (b : Buffer) : b.e4.k = b.k := rfl
@[simp] theorem Buffer.widx_e4 (b : Buffer) : b.e4.widx = b.widx := rfl
@[simp] theorem Buffer.ridx_e4 (b : Buffer) : b.e4.ridx = b.ridx := rfl
@[simp] theorem Buffer.count_e4 (b : Buffer) : b.e4.count = b.count := rfl
@[simp] theorem Buffer.full_e4 (b : Buffer) : b.e4.full = b.isFull := rfl
@[simp] theorem Buffer.mem_e4 (b : Buffer) : b.e4.mem = b.mem := rfl
@[simp] theorem Buffer.cap_e4 (b : Buffer) : b.e4.cap = b.cap := rfl
@[simp] theorem Buffer.k_d2 (b : Buffer) : b.d2.k = b.k := rfl
@[simp] theorem Buffer.widx_d2 (b : Buffer) : b.d2.widx = b.widx := rfl
@[simp] theorem Buffer.ridx_d2 (b : Buffer) : b.d2.ridx = b.advance b.ridx := rfl
@[simp] theorem Buffer.count_d2 (b : Buffer) : b.d2.count = b.count := rfl
@[simp] theorem Buffer.full_d2 (b : Buffer) : b.d2.full = b.full := rfl
@[simp] theorem Buffer.mem_d2 (b : Buffer) : b.d2.mem = b.mem := rfl
@[simp] theorem Buffer.cap_d2 (b : Buffer) : b.d2.cap = b.cap := rfl
@[simp] theorem Buffer.k_d3 (b : Buffer) : b.d3.k = b.k := rfl
@[simp] theorem Buffer.widx_d3 (b : Buffer) : b.d3.widx = b.widx := rfl
@[simp] theorem Buffer.ridx_d3 (b : Buffer) : b.d3.ridx = b.ridx := rfl
@[simp] theorem Buffer.count_d3 (b : Buffer) : b.d3.count = b.count - 1 := rfl
@[simp] theorem Buffer.full_d3 (b : Buffer) : b.d3.full = b.full := rfl
@[simp] theorem Buffer.mem_d3 (b : Buffer) : b.d3.mem = b.mem := rfl
@[simp] theorem Buffer.cap_d3 (b : Buffer) : b.d3.cap = b.cap := rfl
@[simp] theorem Buffer.k_d4 (b : Buffer) : b.d4.k = b.k := rfl
@[simp] theorem Buffer.widx_d4 (b : Buffer) : b.d4.widx = b.widx := rfl
@[simp] theorem Buffer.ridx_d4 (b : Buffer) : b.d4.ridx = b.ridx := rfl
@[simp] theorem Buffer.count_d4 (b : Buffer) : b.d4.count = b.count := rfl
@[simp] theorem Buffer.full_d4 (b : Buffer) : b.d4.full = false := rfl
@[simp] theorem Buffer.mem_d4 (b : Buffer) : b.d4.mem = b.mem := rfl
@[simp] theorem Buffer.cap_d4 (b : Buffer) : b.d4.cap = b.cap := rfl

/-- `INIT` on one buffer: the four registers, and nothing else (R81). -/
theorem Buffer.init_eq (b : Buffer) :
    b.init = { b with widx := 0, ridx := 0, count := 0, full := false } := rfl

/-! ## The per-byte steps -/

/-- All that `ENQ1` can do (R84). -/
theorem Buffer.enq1_cases (b : Buffer) (x : Byte) :
    (b.count = b.cap ∧ b.enq1 x = none) ∨
    (b.count ≠ b.cap ∧ ∃ b', b.enq1 x = some b' ∧ b'.k = b.k ∧ b'.mem = memWrite b.mem b.widx x ∧
      b'.widx = b.advance b.widx ∧ b'.ridx = b.ridx ∧ b'.count = b.count + 1 ∧
      b'.full = decide (b.count + 1 = b.cap)) := by
  by_cases h : b.count = b.cap
  · exact .inl ⟨h, by simp [Buffer.enq1, Buffer.isFull, h]⟩
  · refine .inr ⟨h, (b.e1 x).e2.e3.e4, by simp [Buffer.enq1, Buffer.isFull, h],
      rfl, rfl, rfl, rfl, rfl, ?_⟩
    simp only [Buffer.full_e4, Buffer.isFull, Buffer.count_e3, Buffer.count_e2, Buffer.count_e1,
      Buffer.cap_e3, Buffer.cap_e2, Buffer.cap_e1]
    rfl

/-- All that `DEQ1` can do (R90). -/
theorem Buffer.deq1_cases (f : Inst) (b : Buffer) :
    (b.count = 0 ∧ b.deq1 f = none) ∨
    (b.count ≠ 0 ∧ ∃ b', b.deq1 f = some (b', b.readSlot f b.ridx) ∧ b'.k = b.k ∧ b'.mem = b.mem ∧
      b'.widx = b.widx ∧ b'.ridx = b.advance b.ridx ∧ b'.count = b.count - 1 ∧ b'.full = false) := by
  by_cases h : b.count = 0
  · exact .inl ⟨h, by simp [Buffer.deq1, Buffer.isEmpty, h]⟩
  · exact .inr ⟨h, b.d2.d3.d4, by simp [Buffer.deq1, Buffer.isEmpty, h, Buffer.d1],
      rfl, rfl, rfl, rfl, rfl, rfl⟩

/-! ## The batches -/

/-- What a batch `ENQ` leaves alone, and how far it moves the registers (R86): it accepts as many bytes
as there is room for, and no more. -/
theorem Buffer.enqLoop_registers (b : Buffer) (p : List Byte) (h : b.count ≤ b.cap) :
    (b.enqLoop p).1.k = b.k ∧ (b.enqLoop p).1.ridx = b.ridx ∧
    (b.enqLoop p).2 = min p.length (b.cap - b.count) ∧
    (b.enqLoop p).1.count = b.count + (b.enqLoop p).2 := by
  induction p generalizing b with
  | nil => simp [Buffer.enqLoop]
  | cons x rest ih =>
    rcases b.enq1_cases x with ⟨hc, he⟩ | ⟨hc, b', he, hk, -, -, hr, hn, -⟩
    · simp [Buffer.enqLoop, he, hc]
    · have hcap : b'.cap = b.cap := by simp [Buffer.cap, hk]
      have := ih b' (by omega)
      simp only [Buffer.enqLoop, he, hk, hr, hcap, hn, List.length_cons] at this ⊢
      omega

/-- What a batch `DEQ` leaves alone, and how far it moves the registers (R92). -/
theorem Buffer.deqLoop_registers (f : Inst) (b : Buffer) (n : Nat) :
    (b.deqLoop f n).1.k = b.k ∧ (b.deqLoop f n).1.widx = b.widx ∧ (b.deqLoop f n).1.mem = b.mem ∧
    (b.deqLoop f n).2.length = min n b.count ∧
    (b.deqLoop f n).1.count = b.count - (b.deqLoop f n).2.length := by
  induction n generalizing b with
  | zero => simp [Buffer.deqLoop]
  | succ n ih =>
    rcases b.deq1_cases f with ⟨hc, he⟩ | ⟨hc, b', he, hk, hm, hw, -, hn, -⟩
    · simp [Buffer.deqLoop, he, hc]
    · obtain ⟨h1, h2, h3, h4, h5⟩ := ih b'
      simp only [Buffer.deqLoop, he, List.length_cons]
      exact ⟨h1.trans hk, h2.trans hw, h3.trans hm, by omega, by omega⟩

/-- A `DEQ` of at most one byte (R118, R134). -/
theorem Buffer.deqLoop_one (f : Inst) (b : Buffer) :
    (b.count = 0 ∧ b.deqLoop f 1 = (b, [])) ∨
    (b.count ≠ 0 ∧ b.deqLoop f 1 = (b.d2.d3.d4, [b.readSlot f b.ridx])) := by
  by_cases h : b.count = 0
  · exact .inl ⟨h, by simp [Buffer.deqLoop, Buffer.deq1, Buffer.isEmpty, h]⟩
  · exact .inr ⟨h, by simp [Buffer.deqLoop, Buffer.deq1, Buffer.isEmpty, h, Buffer.d1]⟩

/-- An `ENQ` of one byte on a buffer that is not full (R132). -/
theorem Buffer.enqLoop_one (b : Buffer) (x : Byte) (h : b.count ≠ b.cap) :
    b.enqLoop [x] = ((b.e1 x).e2.e3.e4, 1) := by
  simp [Buffer.enqLoop, Buffer.enq1, Buffer.isFull, h]

/-- Canonical storage is kept by a batch `ENQ`. -/
theorem Buffer.memWf_enqLoop (b : Buffer) (p : List Byte) (h : memWf b.mem = true) :
    memWf (b.enqLoop p).1.mem = true := by
  induction p generalizing b with
  | nil => simpa [Buffer.enqLoop] using h
  | cons x rest ih =>
    rcases b.enq1_cases x with ⟨-, he⟩ | ⟨-, b', he, -, hm, -⟩
    · simpa [Buffer.enqLoop, he] using h
    · simpa [Buffer.enqLoop, he] using ih b' (by rw [hm]; exact memWf_memWrite _ _ _ h)

end Sys2Proof.Machine
end

