-- ==== Sys2Proof/Laws/State.lean ====
section
/-! SUPPORT. One lemma per field per update of the state, so that no proof unfolds a record update. -/

namespace Sys2Proof.Machine

/-! ## Reading through concrete names -/

@[simp] theorem State.buf_inbound (s : State) :
    s.buf .inbound = s.inb := rfl

@[simp] theorem State.buf_outbound (s : State) :
    s.buf .outbound = s.outb := rfl

@[simp] theorem State.agent_fg (s : State) :
    s.agent .fg = s.fg := rfl

@[simp] theorem State.agent_rxi (s : State) :
    s.agent .rxi = s.rxi := rfl

@[simp] theorem State.agent_txi (s : State) :
    s.agent .txi = s.txi := rfl

@[simp] theorem State.initialised_inbound (s : State) :
    s.initialised .inbound = s.initIn := rfl

@[simp] theorem State.initialised_outbound (s : State) :
    s.initialised .outbound = s.initOut := rfl

/-! ## setBuf -/

@[simp] theorem State.per_setBuf (s : State) (f : Inst) (b : Buffer) :
    (s.setBuf f b).per = s.per := by cases f <;> rfl

@[simp] theorem State.fg_setBuf (s : State) (f : Inst) (b : Buffer) :
    (s.setBuf f b).fg = s.fg := by cases f <;> rfl

@[simp] theorem State.rxi_setBuf (s : State) (f : Inst) (b : Buffer) :
    (s.setBuf f b).rxi = s.rxi := by cases f <;> rfl

@[simp] theorem State.txi_setBuf (s : State) (f : Inst) (b : Buffer) :
    (s.setBuf f b).txi = s.txi := by cases f <;> rfl

@[simp] theorem State.active_setBuf (s : State) (f : Inst) (b : Buffer) :
    (s.setBuf f b).active = s.active := by cases f <;> rfl

@[simp] theorem State.booted_setBuf (s : State) (f : Inst) (b : Buffer) :
    (s.setBuf f b).booted = s.booted := by cases f <;> rfl

@[simp] theorem State.initIn_setBuf (s : State) (f : Inst) (b : Buffer) :
    (s.setBuf f b).initIn = s.initIn := by cases f <;> rfl

@[simp] theorem State.initOut_setBuf (s : State) (f : Inst) (b : Buffer) :
    (s.setBuf f b).initOut = s.initOut := by cases f <;> rfl

@[simp] theorem State.issuer_setBuf (s : State) (f : Inst) (b : Buffer) :
    (s.setBuf f b).issuer = s.issuer := by cases f <;> rfl

@[simp] theorem State.todo_setBuf (s : State) (f : Inst) (b : Buffer) :
    (s.setBuf f b).todo = s.todo := by cases f <;> rfl

@[simp] theorem State.agent_setBuf (s : State) (f : Inst) (b : Buffer) (d : Agent) :
    (s.setBuf f b).agent d = s.agent d := by cases f <;> cases d <;> rfl

@[simp] theorem State.initialised_setBuf (s : State) (f : Inst) (b : Buffer) (g : Inst) :
    (s.setBuf f b).initialised g = s.initialised g := by cases f <;> cases g <;> rfl

@[simp] theorem State.buf_setBuf_same (s : State) (f : Inst) (b : Buffer) :
    (s.setBuf f b).buf f = b := by cases f <;> rfl

theorem State.buf_setBuf_of_ne (s : State) (b : Buffer) (f g : Inst) (h : g ≠ f) :
    (s.setBuf f b).buf g = s.buf g := by
  cases f <;> cases g <;> first | rfl | exact absurd rfl h

@[simp] theorem State.inb_setBuf_inbound (s : State) (b : Buffer) :
    (s.setBuf .inbound b).inb = b := rfl

@[simp] theorem State.outb_setBuf_inbound (s : State) (b : Buffer) :
    (s.setBuf .inbound b).outb = s.outb := rfl

@[simp] theorem State.outb_setBuf_outbound (s : State) (b : Buffer) :
    (s.setBuf .outbound b).outb = b := rfl

@[simp] theorem State.inb_setBuf_outbound (s : State) (b : Buffer) :
    (s.setBuf .outbound b).inb = s.inb := rfl

/-! ## setAgent, finish, hold -/

@[simp] theorem State.inb_setAgent (s : State) (a : Agent) (x : AgentState) :
    (s.setAgent a x).inb = s.inb := by cases a <;> rfl

@[simp] theorem State.outb_setAgent (s : State) (a : Agent) (x : AgentState) :
    (s.setAgent a x).outb = s.outb := by cases a <;> rfl

@[simp] theorem State.per_setAgent (s : State) (a : Agent) (x : AgentState) :
    (s.setAgent a x).per = s.per := by cases a <;> rfl

@[simp] theorem State.active_setAgent (s : State) (a : Agent) (x : AgentState) :
    (s.setAgent a x).active = s.active := by cases a <;> rfl

@[simp] theorem State.booted_setAgent (s : State) (a : Agent) (x : AgentState) :
    (s.setAgent a x).booted = s.booted := by cases a <;> rfl

@[simp] theorem State.initIn_setAgent (s : State) (a : Agent) (x : AgentState) :
    (s.setAgent a x).initIn = s.initIn := by cases a <;> rfl

@[simp] theorem State.initOut_setAgent (s : State) (a : Agent) (x : AgentState) :
    (s.setAgent a x).initOut = s.initOut := by cases a <;> rfl

@[simp] theorem State.issuer_setAgent (s : State) (a : Agent) (x : AgentState) :
    (s.setAgent a x).issuer = s.issuer := by cases a <;> rfl

@[simp] theorem State.todo_setAgent (s : State) (a : Agent) (x : AgentState) :
    (s.setAgent a x).todo = s.todo := by cases a <;> rfl

@[simp] theorem State.buf_setAgent (s : State) (a : Agent) (x : AgentState) (g : Inst) :
    (s.setAgent a x).buf g = s.buf g := by cases a <;> cases g <;> rfl

@[simp] theorem State.initialised_setAgent (s : State) (a : Agent) (x : AgentState) (g : Inst) :
    (s.setAgent a x).initialised g = s.initialised g := by cases a <;> cases g <;> rfl

@[simp] theorem State.agent_setAgent_same (s : State) (a : Agent) (x : AgentState) :
    (s.setAgent a x).agent a = x := by cases a <;> rfl

theorem State.agent_setAgent_of_ne (s : State) (x : AgentState) (a d : Agent) (h : d ≠ a) :
    (s.setAgent a x).agent d = s.agent d := by
  cases a <;> cases d <;> first | rfl | exact absurd rfl h

@[simp] theorem State.fg_setAgent_fg (s : State) (x : AgentState) :
    (s.setAgent .fg x).fg = x := rfl

@[simp] theorem State.rxi_setAgent_fg (s : State) (x : AgentState) :
    (s.setAgent .fg x).rxi = s.rxi := rfl

@[simp] theorem State.txi_setAgent_fg (s : State) (x : AgentState) :
    (s.setAgent .fg x).txi = s.txi := rfl

@[simp] theorem State.fg_setAgent_rxi (s : State) (x : AgentState) :
    (s.setAgent .rxi x).fg = s.fg := rfl

@[simp] theorem State.rxi_setAgent_rxi (s : State) (x : AgentState) :
    (s.setAgent .rxi x).rxi = x := rfl

@[simp] theorem State.txi_setAgent_rxi (s : State) (x : AgentState) :
    (s.setAgent .rxi x).txi = s.txi := rfl

@[simp] theorem State.fg_setAgent_txi (s : State) (x : AgentState) :
    (s.setAgent .txi x).fg = s.fg := rfl

@[simp] theorem State.rxi_setAgent_txi (s : State) (x : AgentState) :
    (s.setAgent .txi x).rxi = s.rxi := rfl

@[simp] theorem State.txi_setAgent_txi (s : State) (x : AgentState) :
    (s.setAgent .txi x).txi = x := rfl

@[simp] theorem State.report_eq (s : State) (a : Agent) (r : Result) :
    s.report a r = s.setAgent a { s.agent a with result := some r } := rfl

@[simp] theorem State.finish_eq (s : State) (a : Agent) (r : Result) :
    s.finish a r = s.setAgent a { inflight := none, result := some r } := rfl

@[simp] theorem State.hold_eq (s : State) (a : Agent) (o : Op) :
    s.hold a o = s.setAgent a { inflight := some o, result := none } := rfl

/-! ## setInitialised, boot -/

@[simp] theorem State.inb_setInitialised (s : State) (f : Inst) (v : Bool) :
    (s.setInitialised f v).inb = s.inb := by cases f <;> rfl

@[simp] theorem State.outb_setInitialised (s : State) (f : Inst) (v : Bool) :
    (s.setInitialised f v).outb = s.outb := by cases f <;> rfl

@[simp] theorem State.per_setInitialised (s : State) (f : Inst) (v : Bool) :
    (s.setInitialised f v).per = s.per := by cases f <;> rfl

@[simp] theorem State.fg_setInitialised (s : State) (f : Inst) (v : Bool) :
    (s.setInitialised f v).fg = s.fg := by cases f <;> rfl

@[simp] theorem State.rxi_setInitialised (s : State) (f : Inst) (v : Bool) :
    (s.setInitialised f v).rxi = s.rxi := by cases f <;> rfl

@[simp] theorem State.txi_setInitialised (s : State) (f : Inst) (v : Bool) :
    (s.setInitialised f v).txi = s.txi := by cases f <;> rfl

@[simp] theorem State.active_setInitialised (s : State) (f : Inst) (v : Bool) :
    (s.setInitialised f v).active = s.active := by cases f <;> rfl

@[simp] theorem State.booted_setInitialised (s : State) (f : Inst) (v : Bool) :
    (s.setInitialised f v).booted = s.booted := by cases f <;> rfl

@[simp] theorem State.issuer_setInitialised (s : State) (f : Inst) (v : Bool) :
    (s.setInitialised f v).issuer = s.issuer := by cases f <;> rfl

@[simp] theorem State.todo_setInitialised (s : State) (f : Inst) (v : Bool) :
    (s.setInitialised f v).todo = s.todo := by cases f <;> rfl

@[simp] theorem State.buf_setInitialised (s : State) (f : Inst) (v : Bool) (g : Inst) :
    (s.setInitialised f v).buf g = s.buf g := by cases f <;> cases g <;> rfl

@[simp] theorem State.agent_setInitialised (s : State) (f : Inst) (v : Bool) (d : Agent) :
    (s.setInitialised f v).agent d = s.agent d := by cases f <;> cases d <;> rfl

@[simp] theorem State.initialised_setInitialised_same (s : State) (f : Inst) (v : Bool) :
    (s.setInitialised f v).initialised f = v := by cases f <;> rfl

theorem State.initialised_setInitialised_of_ne (s : State) (v : Bool) (f g : Inst) (h : g ≠ f) :
    (s.setInitialised f v).initialised g = s.initialised g := by
  cases f <;> cases g <;> first | rfl | exact absurd rfl h

@[simp] theorem State.initIn_setInitialised_inbound (s : State) (v : Bool) :
    (s.setInitialised .inbound v).initIn = v := rfl

@[simp] theorem State.initOut_setInitialised_inbound (s : State) (v : Bool) :
    (s.setInitialised .inbound v).initOut = s.initOut := rfl

@[simp] theorem State.initOut_setInitialised_outbound (s : State) (v : Bool) :
    (s.setInitialised .outbound v).initOut = v := rfl

@[simp] theorem State.initIn_setInitialised_outbound (s : State) (v : Bool) :
    (s.setInitialised .outbound v).initIn = s.initIn := rfl

@[simp] theorem State.inb_boot (s : State) :
    s.boot.inb = s.inb := rfl

@[simp] theorem State.outb_boot (s : State) :
    s.boot.outb = s.outb := rfl

@[simp] theorem State.per_boot (s : State) :
    s.boot.per = s.per := rfl

@[simp] theorem State.fg_boot (s : State) :
    s.boot.fg = s.fg := rfl

@[simp] theorem State.rxi_boot (s : State) :
    s.boot.rxi = s.rxi := rfl

@[simp] theorem State.txi_boot (s : State) :
    s.boot.txi = s.txi := rfl

@[simp] theorem State.active_boot (s : State) :
    s.boot.active = s.active := rfl

@[simp] theorem State.issuer_boot (s : State) :
    s.boot.issuer = s.issuer := rfl

@[simp] theorem State.todo_boot (s : State) :
    s.boot.todo = s.todo := rfl

@[simp] theorem State.buf_boot (s : State) (g : Inst) :
    s.boot.buf g = s.buf g := by cases g <;> rfl

@[simp] theorem State.agent_boot (s : State) (d : Agent) :
    s.boot.agent d = s.agent d := by cases d <;> rfl

@[simp] theorem State.booted_boot (s : State) :
    s.boot.booted = true := rfl

@[simp] theorem State.initIn_boot (s : State) :
    s.boot.initIn = true := rfl

@[simp] theorem State.initOut_boot (s : State) :
    s.boot.initOut = true := rfl

@[simp] theorem State.initialised_boot (s : State) (g : Inst) :
    s.boot.initialised g = true := by cases g <;> rfl

/-! ## enter, leave -/

@[simp] theorem State.inb_enter (s : State) (a : Agent) :
    (s.enter a).inb = s.inb := by cases a <;> rfl

@[simp] theorem State.outb_enter (s : State) (a : Agent) :
    (s.enter a).outb = s.outb := by cases a <;> rfl

@[simp] theorem State.per_enter (s : State) (a : Agent) :
    (s.enter a).per = s.per := by cases a <;> rfl

@[simp] theorem State.fg_enter (s : State) (a : Agent) :
    (s.enter a).fg = s.fg := by cases a <;> rfl

@[simp] theorem State.rxi_enter (s : State) (a : Agent) :
    (s.enter a).rxi = s.rxi := by cases a <;> rfl

@[simp] theorem State.txi_enter (s : State) (a : Agent) :
    (s.enter a).txi = s.txi := by cases a <;> rfl

@[simp] theorem State.booted_enter (s : State) (a : Agent) :
    (s.enter a).booted = s.booted := by cases a <;> rfl

@[simp] theorem State.initIn_enter (s : State) (a : Agent) :
    (s.enter a).initIn = s.initIn := by cases a <;> rfl

@[simp] theorem State.initOut_enter (s : State) (a : Agent) :
    (s.enter a).initOut = s.initOut := by cases a <;> rfl

@[simp] theorem State.issuer_enter (s : State) (a : Agent) :
    (s.enter a).issuer = s.issuer := by cases a <;> rfl

@[simp] theorem State.todo_enter (s : State) (a : Agent) :
    (s.enter a).todo = s.todo := by cases a <;> rfl

@[simp] theorem State.buf_enter (s : State) (a : Agent) (g : Inst) :
    (s.enter a).buf g = s.buf g := by cases a <;> cases g <;> rfl

@[simp] theorem State.agent_enter (s : State) (a : Agent) (d : Agent) :
    (s.enter a).agent d = s.agent d := by cases a <;> cases d <;> rfl

@[simp] theorem State.initialised_enter (s : State) (a : Agent) (g : Inst) :
    (s.enter a).initialised g = s.initialised g := by cases a <;> cases g <;> rfl

@[simp] theorem State.enter_fg (s : State) :
    s.enter .fg = s := rfl

@[simp] theorem State.inb_leave (s : State) (a : Agent) :
    (s.leave a).inb = s.inb := by cases a <;> rfl

@[simp] theorem State.outb_leave (s : State) (a : Agent) :
    (s.leave a).outb = s.outb := by cases a <;> rfl

@[simp] theorem State.per_leave (s : State) (a : Agent) :
    (s.leave a).per = s.per := by cases a <;> rfl

@[simp] theorem State.fg_leave (s : State) (a : Agent) :
    (s.leave a).fg = s.fg := by cases a <;> rfl

@[simp] theorem State.rxi_leave (s : State) (a : Agent) :
    (s.leave a).rxi = s.rxi := by cases a <;> rfl

@[simp] theorem State.txi_leave (s : State) (a : Agent) :
    (s.leave a).txi = s.txi := by cases a <;> rfl

@[simp] theorem State.booted_leave (s : State) (a : Agent) :
    (s.leave a).booted = s.booted := by cases a <;> rfl

@[simp] theorem State.initIn_leave (s : State) (a : Agent) :
    (s.leave a).initIn = s.initIn := by cases a <;> rfl

@[simp] theorem State.initOut_leave (s : State) (a : Agent) :
    (s.leave a).initOut = s.initOut := by cases a <;> rfl

@[simp] theorem State.issuer_leave (s : State) (a : Agent) :
    (s.leave a).issuer = s.issuer := by cases a <;> rfl

@[simp] theorem State.todo_leave (s : State) (a : Agent) :
    (s.leave a).todo = s.todo := by cases a <;> rfl

@[simp] theorem State.buf_leave (s : State) (a : Agent) (g : Inst) :
    (s.leave a).buf g = s.buf g := by cases a <;> cases g <;> rfl

@[simp] theorem State.agent_leave (s : State) (a : Agent) (d : Agent) :
    (s.leave a).agent d = s.agent d := by cases a <;> cases d <;> rfl

@[simp] theorem State.initialised_leave (s : State) (a : Agent) (g : Inst) :
    (s.leave a).initialised g = s.initialised g := by cases a <;> cases g <;> rfl

@[simp] theorem State.leave_fg (s : State) :
    s.leave .fg = s := rfl

@[simp] theorem State.active_enter_rxi (s : State) :
    (s.enter .rxi).active = .rxi :: s.active := rfl

@[simp] theorem State.active_enter_txi (s : State) :
    (s.enter .txi).active = .txi :: s.active := rfl

@[simp] theorem State.active_leave_rxi (s : State) :
    (s.leave .rxi).active = s.active.tail := rfl

@[simp] theorem State.active_leave_txi (s : State) :
    (s.leave .txi).active = s.active.tail := rfl

/-! ## The signals -/

@[simp] theorem State.inb_readRx (s : State) :
    s.readRx.inb = s.inb := rfl

@[simp] theorem State.outb_readRx (s : State) :
    s.readRx.outb = s.outb := rfl

@[simp] theorem State.fg_readRx (s : State) :
    s.readRx.fg = s.fg := rfl

@[simp] theorem State.rxi_readRx (s : State) :
    s.readRx.rxi = s.rxi := rfl

@[simp] theorem State.txi_readRx (s : State) :
    s.readRx.txi = s.txi := rfl

@[simp] theorem State.active_readRx (s : State) :
    s.readRx.active = s.active := rfl

@[simp] theorem State.booted_readRx (s : State) :
    s.readRx.booted = s.booted := rfl

@[simp] theorem State.initIn_readRx (s : State) :
    s.readRx.initIn = s.initIn := rfl

@[simp] theorem State.initOut_readRx (s : State) :
    s.readRx.initOut = s.initOut := rfl

@[simp] theorem State.issuer_readRx (s : State) :
    s.readRx.issuer = s.issuer := rfl

@[simp] theorem State.todo_readRx (s : State) :
    s.readRx.todo = s.todo := rfl

@[simp] theorem State.buf_readRx (s : State) (g : Inst) :
    s.readRx.buf g = s.buf g := by cases g <;> rfl

@[simp] theorem State.agent_readRx (s : State) (d : Agent) :
    s.readRx.agent d = s.agent d := by cases d <;> rfl

@[simp] theorem State.initialised_readRx (s : State) (g : Inst) :
    s.readRx.initialised g = s.initialised g := by cases g <;> rfl

@[simp] theorem State.rxReady_readRx (s : State) :
    s.readRx.per.rxReady = false := rfl

@[simp] theorem State.rxData_readRx (s : State) :
    s.readRx.per.rxData = s.per.rxData := rfl

@[simp] theorem State.rxErr_readRx (s : State) :
    s.readRx.per.rxErr = s.per.rxErr := rfl

@[simp] theorem State.txEmpty_readRx (s : State) :
    s.readRx.per.txEmpty = s.per.txEmpty := rfl

@[simp] theorem State.txData_readRx (s : State) :
    s.readRx.per.txData = s.per.txData := rfl

@[simp] theorem State.txIrqEn_readRx (s : State) :
    s.readRx.per.txIrqEn = s.per.txIrqEn := rfl

@[simp] theorem State.inb_ackRx (s : State) :
    s.ackRx.inb = s.inb := rfl

@[simp] theorem State.outb_ackRx (s : State) :
    s.ackRx.outb = s.outb := rfl

@[simp] theorem State.fg_ackRx (s : State) :
    s.ackRx.fg = s.fg := rfl

@[simp] theorem State.rxi_ackRx (s : State) :
    s.ackRx.rxi = s.rxi := rfl

@[simp] theorem State.txi_ackRx (s : State) :
    s.ackRx.txi = s.txi := rfl

@[simp] theorem State.active_ackRx (s : State) :
    s.ackRx.active = s.active := rfl

@[simp] theorem State.booted_ackRx (s : State) :
    s.ackRx.booted = s.booted := rfl

@[simp] theorem State.initIn_ackRx (s : State) :
    s.ackRx.initIn = s.initIn := rfl

@[simp] theorem State.initOut_ackRx (s : State) :
    s.ackRx.initOut = s.initOut := rfl

@[simp] theorem State.issuer_ackRx (s : State) :
    s.ackRx.issuer = s.issuer := rfl

@[simp] theorem State.todo_ackRx (s : State) :
    s.ackRx.todo = s.todo := rfl

@[simp] theorem State.buf_ackRx (s : State) (g : Inst) :
    s.ackRx.buf g = s.buf g := by cases g <;> rfl

@[simp] theorem State.agent_ackRx (s : State) (d : Agent) :
    s.ackRx.agent d = s.agent d := by cases d <;> rfl

@[simp] theorem State.initialised_ackRx (s : State) (g : Inst) :
    s.ackRx.initialised g = s.initialised g := by cases g <;> rfl

@[simp] theorem State.rxReady_ackRx (s : State) :
    s.ackRx.per.rxReady = s.per.rxReady := rfl

@[simp] theorem State.rxData_ackRx (s : State) :
    s.ackRx.per.rxData = s.per.rxData := rfl

@[simp] theorem State.rxErr_ackRx (s : State) :
    s.ackRx.per.rxErr = false := rfl

@[simp] theorem State.txEmpty_ackRx (s : State) :
    s.ackRx.per.txEmpty = s.per.txEmpty := rfl

@[simp] theorem State.txData_ackRx (s : State) :
    s.ackRx.per.txData = s.per.txData := rfl

@[simp] theorem State.txIrqEn_ackRx (s : State) :
    s.ackRx.per.txIrqEn = s.per.txIrqEn := rfl

@[simp] theorem State.inb_sendTx (s : State) (b : Byte) :
    (s.sendTx b).inb = s.inb := rfl

@[simp] theorem State.outb_sendTx (s : State) (b : Byte) :
    (s.sendTx b).outb = s.outb := rfl

@[simp] theorem State.fg_sendTx (s : State) (b : Byte) :
    (s.sendTx b).fg = s.fg := rfl

@[simp] theorem State.rxi_sendTx (s : State) (b : Byte) :
    (s.sendTx b).rxi = s.rxi := rfl

@[simp] theorem State.txi_sendTx (s : State) (b : Byte) :
    (s.sendTx b).txi = s.txi := rfl

@[simp] theorem State.active_sendTx (s : State) (b : Byte) :
    (s.sendTx b).active = s.active := rfl

@[simp] theorem State.booted_sendTx (s : State) (b : Byte) :
    (s.sendTx b).booted = s.booted := rfl

@[simp] theorem State.initIn_sendTx (s : State) (b : Byte) :
    (s.sendTx b).initIn = s.initIn := rfl

@[simp] theorem State.initOut_sendTx (s : State) (b : Byte) :
    (s.sendTx b).initOut = s.initOut := rfl

@[simp] theorem State.issuer_sendTx (s : State) (b : Byte) :
    (s.sendTx b).issuer = s.issuer := rfl

@[simp] theorem State.todo_sendTx (s : State) (b : Byte) :
    (s.sendTx b).todo = s.todo := rfl

@[simp] theorem State.buf_sendTx (s : State) (b : Byte) (g : Inst) :
    (s.sendTx b).buf g = s.buf g := by cases g <;> rfl

@[simp] theorem State.agent_sendTx (s : State) (b : Byte) (d : Agent) :
    (s.sendTx b).agent d = s.agent d := by cases d <;> rfl

@[simp] theorem State.initialised_sendTx (s : State) (b : Byte) (g : Inst) :
    (s.sendTx b).initialised g = s.initialised g := by cases g <;> rfl

@[simp] theorem State.rxReady_sendTx (s : State) (b : Byte) :
    (s.sendTx b).per.rxReady = s.per.rxReady := rfl

@[simp] theorem State.rxData_sendTx (s : State) (b : Byte) :
    (s.sendTx b).per.rxData = s.per.rxData := rfl

@[simp] theorem State.rxErr_sendTx (s : State) (b : Byte) :
    (s.sendTx b).per.rxErr = s.per.rxErr := rfl

@[simp] theorem State.txEmpty_sendTx (s : State) (b : Byte) :
    (s.sendTx b).per.txEmpty = false := rfl

@[simp] theorem State.txData_sendTx (s : State) (b : Byte) :
    (s.sendTx b).per.txData = b := rfl

@[simp] theorem State.txIrqEn_sendTx (s : State) (b : Byte) :
    (s.sendTx b).per.txIrqEn = s.per.txIrqEn := rfl

@[simp] theorem State.inb_enableTx (s : State) :
    s.enableTx.inb = s.inb := rfl

@[simp] theorem State.outb_enableTx (s : State) :
    s.enableTx.outb = s.outb := rfl

@[simp] theorem State.fg_enableTx (s : State) :
    s.enableTx.fg = s.fg := rfl

@[simp] theorem State.rxi_enableTx (s : State) :
    s.enableTx.rxi = s.rxi := rfl

@[simp] theorem State.txi_enableTx (s : State) :
    s.enableTx.txi = s.txi := rfl

@[simp] theorem State.active_enableTx (s : State) :
    s.enableTx.active = s.active := rfl

@[simp] theorem State.booted_enableTx (s : State) :
    s.enableTx.booted = s.booted := rfl

@[simp] theorem State.initIn_enableTx (s : State) :
    s.enableTx.initIn = s.initIn := rfl

@[simp] theorem State.initOut_enableTx (s : State) :
    s.enableTx.initOut = s.initOut := rfl

@[simp] theorem State.issuer_enableTx (s : State) :
    s.enableTx.issuer = s.issuer := rfl

@[simp] theorem State.todo_enableTx (s : State) :
    s.enableTx.todo = s.todo := rfl

@[simp] theorem State.buf_enableTx (s : State) (g : Inst) :
    s.enableTx.buf g = s.buf g := by cases g <;> rfl

@[simp] theorem State.agent_enableTx (s : State) (d : Agent) :
    s.enableTx.agent d = s.agent d := by cases d <;> rfl

@[simp] theorem State.initialised_enableTx (s : State) (g : Inst) :
    s.enableTx.initialised g = s.initialised g := by cases g <;> rfl

@[simp] theorem State.rxReady_enableTx (s : State) :
    s.enableTx.per.rxReady = s.per.rxReady := rfl

@[simp] theorem State.rxData_enableTx (s : State) :
    s.enableTx.per.rxData = s.per.rxData := rfl

@[simp] theorem State.rxErr_enableTx (s : State) :
    s.enableTx.per.rxErr = s.per.rxErr := rfl

@[simp] theorem State.txEmpty_enableTx (s : State) :
    s.enableTx.per.txEmpty = s.per.txEmpty := rfl

@[simp] theorem State.txData_enableTx (s : State) :
    s.enableTx.per.txData = s.per.txData := rfl

@[simp] theorem State.txIrqEn_enableTx (s : State) :
    s.enableTx.per.txIrqEn = true := rfl

@[simp] theorem State.inb_disableTx (s : State) :
    s.disableTx.inb = s.inb := rfl

@[simp] theorem State.outb_disableTx (s : State) :
    s.disableTx.outb = s.outb := rfl

@[simp] theorem State.fg_disableTx (s : State) :
    s.disableTx.fg = s.fg := rfl

@[simp] theorem State.rxi_disableTx (s : State) :
    s.disableTx.rxi = s.rxi := rfl

@[simp] theorem State.txi_disableTx (s : State) :
    s.disableTx.txi = s.txi := rfl

@[simp] theorem State.active_disableTx (s : State) :
    s.disableTx.active = s.active := rfl

@[simp] theorem State.booted_disableTx (s : State) :
    s.disableTx.booted = s.booted := rfl

@[simp] theorem State.initIn_disableTx (s : State) :
    s.disableTx.initIn = s.initIn := rfl

@[simp] theorem State.initOut_disableTx (s : State) :
    s.disableTx.initOut = s.initOut := rfl

@[simp] theorem State.issuer_disableTx (s : State) :
    s.disableTx.issuer = s.issuer := rfl

@[simp] theorem State.todo_disableTx (s : State) :
    s.disableTx.todo = s.todo := rfl

@[simp] theorem State.buf_disableTx (s : State) (g : Inst) :
    s.disableTx.buf g = s.buf g := by cases g <;> rfl

@[simp] theorem State.agent_disableTx (s : State) (d : Agent) :
    s.disableTx.agent d = s.agent d := by cases d <;> rfl

@[simp] theorem State.initialised_disableTx (s : State) (g : Inst) :
    s.disableTx.initialised g = s.initialised g := by cases g <;> rfl

@[simp] theorem State.rxReady_disableTx (s : State) :
    s.disableTx.per.rxReady = s.per.rxReady := rfl

@[simp] theorem State.rxData_disableTx (s : State) :
    s.disableTx.per.rxData = s.per.rxData := rfl

@[simp] theorem State.rxErr_disableTx (s : State) :
    s.disableTx.per.rxErr = s.per.rxErr := rfl

@[simp] theorem State.txEmpty_disableTx (s : State) :
    s.disableTx.per.txEmpty = s.per.txEmpty := rfl

@[simp] theorem State.txData_disableTx (s : State) :
    s.disableTx.per.txData = s.per.txData := rfl

@[simp] theorem State.txIrqEn_disableTx (s : State) :
    s.disableTx.per.txIrqEn = false := rfl

/-! ## present -/

@[simp] theorem State.inb_present (s : State) (a : Agent) (rest : List Event) :
    (s.present a rest).inb = s.inb := rfl

@[simp] theorem State.outb_present (s : State) (a : Agent) (rest : List Event) :
    (s.present a rest).outb = s.outb := rfl

@[simp] theorem State.per_present (s : State) (a : Agent) (rest : List Event) :
    (s.present a rest).per = s.per := rfl

@[simp] theorem State.fg_present (s : State) (a : Agent) (rest : List Event) :
    (s.present a rest).fg = s.fg := rfl

@[simp] theorem State.rxi_present (s : State) (a : Agent) (rest : List Event) :
    (s.present a rest).rxi = s.rxi := rfl

@[simp] theorem State.txi_present (s : State) (a : Agent) (rest : List Event) :
    (s.present a rest).txi = s.txi := rfl

@[simp] theorem State.active_present (s : State) (a : Agent) (rest : List Event) :
    (s.present a rest).active = s.active := rfl

@[simp] theorem State.booted_present (s : State) (a : Agent) (rest : List Event) :
    (s.present a rest).booted = s.booted := rfl

@[simp] theorem State.initIn_present (s : State) (a : Agent) (rest : List Event) :
    (s.present a rest).initIn = s.initIn := rfl

@[simp] theorem State.initOut_present (s : State) (a : Agent) (rest : List Event) :
    (s.present a rest).initOut = s.initOut := rfl

@[simp] theorem State.buf_present (s : State) (a : Agent) (rest : List Event) (g : Inst) :
    (s.present a rest).buf g = s.buf g := by cases g <;> rfl

@[simp] theorem State.agent_present (s : State) (a : Agent) (rest : List Event) (d : Agent) :
    (s.present a rest).agent d = s.agent d := by cases d <;> rfl

@[simp] theorem State.initialised_present (s : State) (a : Agent) (rest : List Event) (g : Inst) :
    (s.present a rest).initialised g = s.initialised g := by cases g <;> rfl

@[simp] theorem State.issuer_present (s : State) (a : Agent) (rest : List Event) :
    (s.present a rest).issuer = a := rfl

@[simp] theorem State.todo_present (s : State) (a : Agent) (rest : List Event) :
    (s.present a rest).todo = rest := rfl

end Sys2Proof.Machine
end

