-- ==== Sys2Proof/Laws/Legality.lean ====
section
/-! SUPPORT. When each operation may be issued, as one equivalence per kind of operation, and what issuing
it answers: the shape every meaning has. -/

namespace Sys2Proof.Machine

/-- The foreground may issue now: it is the issuer, has nothing in flight, and is not preempted. -/
theorem State.fg_free_iff (s : State) (h : s.issuer = .fg) :
    (s.issuerBusy = false ∧ s.issuerPreempted = false) ↔ (s.fg.inflight = none ∧ s.active = []) := by
  unfold State.issuerBusy State.issuerPreempted
  simp only [h, State.agent_fg]
  cases s.fg.inflight <;> cases s.active <;> simp

/-- A whole operation goes on exactly when it may be issued (30_encoding.md R68, 60_exceptions.md R152). -/
theorem State.whenLegal_next_iff (s t u : State) (i : Instr) :
    s.whenLegal i t = .next u ↔ legality i s = none ∧ u = t := by
  unfold State.whenLegal
  cases legality i s with
  | none => simp [eq_comm]
  | some r => simp

theorem State.whenLegal_of_legal (s t : State) (i : Instr) (h : legality i s = none) :
    s.whenLegal i t = .next t := by
  simp [State.whenLegal, h]

theorem State.whenLegal_of_refused (s t : State) (i : Instr) (r : Refusal) (h : legality i s = some r) :
    s.whenLegal i t = .refused r := by
  simp [State.whenLegal, h]

/-- An operation that may not be issued is refused, whole or by micro-steps (60_exceptions.md R152). -/
theorem State.whenLegal_refused_iff (s t : State) (i : Instr) (r : Refusal) :
    s.whenLegal i t = .refused r ↔ legality i s = some r := by
  unfold State.whenLegal
  cases legality i s with
  | none => simp
  | some q => simp

/-- When `INIT.f` may be issued (R68, 40_buffer_ops.md R82). -/
theorem legality_init_iff (f : Inst) (s : State) :
    legality (.init f) s = none ↔
      s.issuer = .fg ∧ s.booted = false ∧ s.fg.inflight = none ∧ s.active = [] := by
  by_cases h : s.issuer = .fg
  · have := s.fg_free_iff h
    cases hb : s.booted <;> cases h1 : s.issuerBusy <;> cases h2 : s.issuerPreempted <;>
      simp_all [legality, firstRefusal, State.notForeground, State.fgRefusals]
  · simp [legality, firstRefusal, State.notForeground, h]

/-- When `ENQ.f` may be issued: a buffer exercised alone (R68, R32). -/
theorem legality_enq_iff (f : Inst) (av : Bool) (p : List Byte) (s : State) :
    legality (.enq f av p) s = none ↔
      s.issuer = .fg ∧ s.booted = false ∧ s.initialised f = true ∧ s.fg.inflight = none ∧ s.active = [] := by
  by_cases h : s.issuer = .fg
  · have := s.fg_free_iff h
    cases hb : s.booted <;> cases hi : s.initialised f <;> cases h1 : s.issuerBusy <;>
      cases h2 : s.issuerPreempted <;>
      simp_all [legality, firstRefusal, State.notForeground, State.fgRefusals]
  · cases hb : s.booted <;> simp [legality, firstRefusal, State.notForeground, h, hb]

/-- When `DEQ.f` may be issued: a buffer exercised alone (R68, R32). -/
theorem legality_deq_iff (f : Inst) (av : Bool) (n : Nat) (s : State) :
    legality (.deq f av n) s = none ↔
      s.issuer = .fg ∧ s.booted = false ∧ s.initialised f = true ∧ s.fg.inflight = none ∧ s.active = [] :=
  legality_enq_iff f av [] s

/-- A handler may move exactly when its activation is the innermost (20_memory.md R53, 60_exceptions.md R159). -/
theorem State.mayMove_iff_head (s : State) (a : Agent) (h : a ≠ .fg) :
    s.mayMove a = true ↔ s.active.head? = some a := by
  unfold State.mayMove
  cases s.active with
  | nil => simp [h]
  | cons d rest => simpa using eq_comm

/-- When a handler may issue an observer: inside its own activation (60_exceptions.md R161). -/
theorem State.handlerRefusals_none_iff (s : State) (h : s.issuer ≠ .fg) :
    firstRefusal s.handlerRefusals = none ↔ s.booted = true ∧ s.active.head? = some s.issuer := by
  rw [← s.mayMove_iff_head s.issuer h]
  have hc : s.mayMove s.issuer = true → s.active.contains s.issuer = true := fun hm => by
    have := List.mem_of_head? ((s.mayMove_iff_head s.issuer h).mp hm)
    simpa using this
  unfold State.handlerRefusals
  cases s.booted <;> cases hk : s.active.contains s.issuer <;> cases hm : s.mayMove s.issuer <;>
    simp_all [firstRefusal]

/-- When an observer of `f` may be issued (R68, R98): by the foreground between its operations, or by a handler
inside its activation. -/
theorem observer_legal_iff (f : Inst) (s : State) :
    firstRefusal (s.observerRefusals f) = none ↔
      s.initialised f = true ∧
      ((s.issuer = .fg ∧ s.fg.inflight = none ∧ s.active = []) ∨
        (s.issuer ≠ .fg ∧ s.booted = true ∧ s.active.head? = some s.issuer)) := by
  unfold State.observerRefusals State.notForeground
  by_cases h : s.issuer = .fg
  · have := s.fg_free_iff h
    cases s.initialised f <;> cases h1 : s.issuerBusy <;> cases h2 : s.issuerPreempted <;>
      simp_all [firstRefusal, State.fgRefusals]
  · have := s.handlerRefusals_none_iff h
    cases s.initialised f <;> simp_all [firstRefusal]

/-- When `TINIT` may be issued (41_transport_foreground.md R111). -/
theorem legality_tinit_iff (s : State) :
    legality .tinit s = none ↔
      s.issuer = .fg ∧ s.booted = false ∧ s.fg.inflight = none ∧ s.active = [] := by
  by_cases h : s.issuer = .fg
  · have := s.fg_free_iff h
    cases hb : s.booted <;> cases h1 : s.issuerBusy <;> cases h2 : s.issuerPreempted <;>
      simp_all [legality, firstRefusal, State.notForeground, State.fgRefusals]
  · simp [legality, firstRefusal, State.notForeground, h]

/-- When `WRITE` may be issued (R68, 70_reset_and_hazards.md R181). -/
theorem legality_write_iff (av : Bool) (p : List Byte) (s : State) :
    legality (.write av p) s = none ↔
      s.issuer = .fg ∧ s.booted = true ∧ s.fg.inflight = none ∧ s.active = [] := by
  by_cases h : s.issuer = .fg
  · have := s.fg_free_iff h
    cases hb : s.booted <;> cases h1 : s.issuerBusy <;> cases h2 : s.issuerPreempted <;>
      simp_all [legality, firstRefusal, State.notForeground, State.fgRefusals]
  · simp [legality, firstRefusal, State.notForeground, h]

/-- When `READ1` may be issued (R68, R181). -/
theorem legality_read1_iff (s : State) :
    legality .read1 s = none ↔
      s.issuer = .fg ∧ s.booted = true ∧ s.fg.inflight = none ∧ s.active = [] :=
  legality_write_iff true [] s

/-- When an `RXIRQ` activation may start (R68, R181, 20_memory.md R53, 60_exceptions.md R153). -/
theorem legality_rxirq_iff (s : State) :
    legality .rxirq s = none ↔
      s.issuer = .rxi ∧ s.booted = true ∧ s.rxi.inflight = none ∧ s.per.rxReady = true := by
  unfold legality State.issuerBusy Peripheral.rxRequest
  cases hi : s.issuer <;> cases s.booted <;> cases hr : s.rxi.inflight <;> cases s.per.rxReady <;>
    simp [firstRefusal, hr]

/-- When a `TXIRQ` activation may start (R68, R181, 20_memory.md R53, 60_exceptions.md R154). -/
theorem legality_txirq_iff (s : State) :
    legality .txirq s = none ↔
      s.issuer = .txi ∧ s.booted = true ∧ s.txi.inflight = none ∧ s.per.txEmpty = true ∧
      s.per.txIrqEn = true := by
  unfold legality State.issuerBusy Peripheral.txRequest
  cases hi : s.issuer <;> cases s.booted <;> cases hr : s.txi.inflight <;> cases s.per.txEmpty <;>
    cases s.per.txIrqEn <;> simp [firstRefusal, hr]

end Sys2Proof.Machine
end

