-- ==== Sys2Proof/Laws/Step.lean ====
section
/-! SUPPORT. What a step, a micro-step and a presented command can do, each said once: later proofs cite
these inversions instead of unfolding the step. -/

namespace Sys2Proof.Machine

/-- A well-formed command goes to its operation; a reserved one is refused (30_encoding.md R67). -/
theorem onDecoded_next_iff (c : Command) (k : Instr → Host.Outcome State Fault Refusal) (t : State) :
    onDecoded c k = .next t ↔ ∃ i, decode c = .instr i ∧ k i = .next t := by
  unfold onDecoded
  cases h : decode c <;> simp

/-- All that a micro-step can do: the agent has an operation in flight and may move, and the state is what
that micro-step leaves (20_memory.md R51, R52). -/
theorem tick_next_iff (a : Agent) (s t : State) :
    tick a s = .next t ↔
      ∃ o, (s.agent a).inflight = some o ∧ s.mayMove a = true ∧ t = s.advance a o := by
  unfold tick
  cases h : (s.agent a).inflight with
  | none => simp
  | some o => by_cases hm : s.mayMove a = true <;> simp [hm, eq_comm]

/-- The agent goes on or returns (60_exceptions.md R159). -/
theorem State.advance_cases (s : State) (a : Agent) (o : Op) :
    (∃ o', (microOp o s).2 = .inl o' ∧ s.advance a o = (microOp o s).1.hold a o') ∨
    (∃ r, (microOp o s).2 = .inr r ∧ s.advance a o = ((microOp o s).1.finish a r).leave a) := by
  unfold State.advance
  cases h : (microOp o s).2 with
  | inl o' => exact .inl ⟨o', rfl, rfl⟩
  | inr r => exact .inr ⟨r, rfl, rfl⟩

/-- The foreground may move exactly when no activation is in progress (20_memory.md R52 (b)). -/
theorem State.mayMove_fg_iff (s : State) (h : Agent.fg ∉ s.active) :
    s.mayMove .fg = true ↔ s.active = [] := by
  unfold State.mayMove
  cases hs : s.active with
  | nil => simp
  | cons d rest =>
    simp only [hs, List.mem_cons, not_or] at h
    simpa using h.1

/-- A handler may move exactly when its activation is the innermost (60_exceptions.md R159). -/
theorem State.mayMove_handler_iff (s : State) (a : Agent) (h : a ≠ .fg) :
    s.mayMove a = true ↔ ∃ rest, s.active = a :: rest :=
  (s.mayMove_iff_head a h).trans List.head?_eq_some_iff

/-- All that issuing an operation can do: it is legal, and the issuer stands before its first micro-step; an
observer is over with it. -/
theorem start_next_cases (i : Instr) (s t : State) (h : start i s = .next t) :
    (∃ o, opOf i = some o ∧ legality i s = none ∧ t = s.launch i o) ∨
    (opOf i = none ∧ exec i s = .next t) := by
  unfold start at h
  cases ho : opOf i with
  | some o =>
    rw [ho] at h
    obtain ⟨hl, ht⟩ := (State.whenLegal_next_iff _ _ _ _).mp h
    exact .inl ⟨o, rfl, hl, ht⟩
  | none => exact .inr ⟨rfl, by rw [ho] at h; exact h⟩

/-- All that a step can do: nothing on an empty tape, else the next move, with the rest still to come. -/
theorem step_next_cases (s t : State) (h : step s = .next t) :
    (s.todo = [] ∧ t = s) ∨
    (∃ a c rest i, s.todo = .issue a c :: rest ∧ decode c = .instr i ∧ exec i (s.present a rest) = .next t) ∨
    (∃ a c rest i, s.todo = .start a c :: rest ∧ decode c = .instr i ∧ start i (s.present a rest) = .next t) ∨
    (∃ a rest, s.todo = .tick a :: rest ∧ tick a { s with todo := rest } = .next t) ∨
    (∃ b e rest, s.todo = .receive b e :: rest ∧ receive b e { s with todo := rest } = .next t) ∨
    (∃ rest, s.todo = .transmit :: rest ∧ transmit { s with todo := rest } = .next t) := by
  unfold step at h
  split at h
  · rename_i hs
    simp only [Host.Outcome.next.injEq] at h
    exact .inl ⟨hs, h.symm⟩
  · rename_i a c rest hs
    obtain ⟨i, hd, he⟩ := (onDecoded_next_iff _ _ _).mp h
    exact .inr (.inl ⟨a, c, rest, i, hs, hd, he⟩)
  · rename_i a c rest hs
    obtain ⟨i, hd, he⟩ := (onDecoded_next_iff _ _ _).mp h
    exact .inr (.inr (.inl ⟨a, c, rest, i, hs, hd, he⟩))
  · rename_i a rest hs
    exact .inr (.inr (.inr (.inl ⟨a, rest, hs, h⟩)))
  · rename_i b e rest hs
    exact .inr (.inr (.inr (.inr (.inl ⟨b, e, rest, hs, h⟩))))
  · rename_i rest hs
    exact .inr (.inr (.inr (.inr (.inr ⟨rest, hs, h⟩))))

/-- All that `PER` can do to the receive signals (60_exceptions.md R160 (a)). -/
theorem receive_next_iff (b : Byte) (e : Bool) (s t : State) :
    receive b e s = .next t ↔
      s.per.rxReady = false ∧
      t = { s with per := { s.per with rxReady := true, rxData := b, rxErr := e } } := by
  unfold receive
  cases s.per.rxReady <;> simp [eq_comm]

/-- All that `PER` can do to the transmit signals (R160 (b)). -/
theorem transmit_next_iff (s t : State) :
    transmit s = .next t ↔
      s.per.txEmpty = false ∧ t = { s with per := { s.per with txEmpty := true } } := by
  unfold transmit
  cases s.per.txEmpty <;> simp [eq_comm]

end Sys2Proof.Machine
end

