-- ==== Sys2Proof/Laws/Micro.lean ====
section
/-! SUPPORT. What one micro-step and one whole operation leave alone: the records of the agents, the nesting
of activations, the tape. -/

namespace Sys2Proof.Machine

@[simp] theorem InitPos.k_step (p : InitPos) (b : Buffer) : (p.step b).1.k = b.k := by
  cases p <;> rfl

@[simp] theorem InitPos.mem_step (p : InitPos) (b : Buffer) : (p.step b).1.mem = b.mem := by
  cases p <;> rfl

@[simp] theorem EnqRun.k_step (av : Bool) (payload : List Byte) (r : EnqRun) (b : Buffer) :
    (r.step av payload b).1.k = b.k := by
  unfold EnqRun.step
  cases r.pos <;> simp

@[simp] theorem EnqRun.ridx_step (av : Bool) (payload : List Byte) (r : EnqRun) (b : Buffer) :
    (r.step av payload b).1.ridx = b.ridx := by
  unfold EnqRun.step
  cases r.pos <;> simp

@[simp] theorem DeqRun.k_step (f : Inst) (av : Bool) (m : Nat) (r : DeqRun) (b : Buffer) :
    (r.step f av m b).1.k = b.k := by
  unfold DeqRun.step
  split <;> simp

@[simp] theorem DeqRun.mem_step (f : Inst) (av : Bool) (m : Nat) (r : DeqRun) (b : Buffer) :
    (r.step f av m b).1.mem = b.mem := by
  unfold DeqRun.step
  split <;> simp

@[simp] theorem DeqRun.widx_step (f : Inst) (av : Bool) (m : Nat) (r : DeqRun) (b : Buffer) :
    (r.step f av m b).1.widx = b.widx := by
  unfold DeqRun.step
  split <;> simp

/-- A producer's micro-step on its buffer: nothing, or one of E1 to E4 (R84). -/
theorem EnqRun.step_buffer_cases (av : Bool) (payload : List Byte) (r : EnqRun) (b : Buffer) :
    (r.step av payload b).1 = b ∨ (∃ x, r.pos = .e1 x ∧ (r.step av payload b).1 = b.e1 x) ∨
    (r.pos = .e2 ∧ (r.step av payload b).1 = b.e2) ∨ (r.pos = .e3 ∧ (r.step av payload b).1 = b.e3) ∨
    (r.pos = .e4 ∧ (r.step av payload b).1 = b.e4) := by
  unfold EnqRun.step
  cases r.pos <;> simp

/-- A consumer's micro-step on its buffer: nothing, or one of D2 to D4 (R90). -/
theorem DeqRun.step_buffer_cases (f : Inst) (av : Bool) (m : Nat) (r : DeqRun) (b : Buffer) :
    (r.step f av m b).1 = b ∨ (∃ x, r.pos = .d2 x ∧ (r.step f av m b).1 = b.d2) ∨
    (∃ x, r.pos = .d3 x ∧ (r.step f av m b).1 = b.d3) ∨
    (∃ x, r.pos = .d4 x ∧ (r.step f av m b).1 = b.d4) := by
  unfold DeqRun.step
  split <;> simp_all

/-- A micro-step touches buffers, signals and boot flags, and nothing of the agents, the nesting, the issuer
and the tape. -/
theorem microOp_frame (o : Op) (s : State) :
    (microOp o s).1.fg = s.fg ∧ (microOp o s).1.rxi = s.rxi ∧ (microOp o s).1.txi = s.txi ∧
    (microOp o s).1.active = s.active ∧ (microOp o s).1.issuer = s.issuer ∧
    (microOp o s).1.todo = s.todo := by
  cases o with
  | init f p =>
    simp only [microOp, microInit]
    cases (p.step (s.buf f)).2 <;> simp
  | enq f av payload r => simp [microOp, microEnq]
  | deq f av m r => simp [microOp, microDeq]
  | tinit p => cases p <;> simp [microOp, microTinit]
  | write av payload p => cases p <;> simp [microOp, microWrite]
  | read1 p =>
    cases p with
    | x1 r => simp [microOp, microRead1]
    | x2 bytes => cases bytes <;> simp [microOp, microRead1]
    | x3 b => simp [microOp, microRead1]
  | rxirq p => cases p <;> simp [microOp, microRxirq]
  | txirq p =>
    cases p with
    | tx1 r => simp [microOp, microTxirq]
    | tx2 bytes => cases bytes <;> simp [microOp, microTxirq]
    | tx3 b => simp [microOp, microTxirq]
    | tx4 => simp [microOp, microTxirq]
    | tx5 => simp [microOp, microTxirq]
    | tx6 => simp [microOp, microTxirq]

/-- A micro-step of one agent leaves the records of the others, the issuer and the tape as they are. -/
theorem State.advance_other (s : State) (a d : Agent) (o : Op) (h : d ≠ a) :
    (s.advance a o).agent d = s.agent d := by
  obtain ⟨hf, hr, ht, -⟩ := microOp_frame o s
  have hm : (microOp o s).1.agent d = s.agent d := by cases d <;> simp [hf, hr, ht]
  rcases s.advance_cases a o with ⟨o', -, he⟩ | ⟨r, -, he⟩
  · rw [he, State.hold_eq, State.agent_setAgent_of_ne _ _ _ _ h, hm]
  · rw [he, State.agent_leave, State.finish_eq, State.agent_setAgent_of_ne _ _ _ _ h, hm]

/-- What every whole operation does to the agents: it is legal, the other agents' records, the nesting, the
issuer and the tape are unchanged. -/
theorem exec_next_frame (i : Instr) (s t : State) (h : exec i s = .next t) :
    legality i s = none ∧ t.active = s.active ∧ t.issuer = s.issuer ∧ t.todo = s.todo ∧
    ∀ d, d ≠ s.issuer → t.agent d = s.agent d := by
  cases i with
  | init f =>
    obtain ⟨hl, rfl⟩ := (State.whenLegal_next_iff _ _ _ _).mp h
    exact ⟨hl, by simp, by simp, by simp, fun d hd => by simp [State.agent_setAgent_of_ne _ _ _ _ hd]⟩
  | enq f av payload =>
    obtain ⟨hl, rfl⟩ := (State.whenLegal_next_iff _ _ _ _).mp h
    exact ⟨hl, by simp, by simp, by simp, fun d hd => by simp [State.agent_setAgent_of_ne _ _ _ _ hd]⟩
  | deq f av m =>
    obtain ⟨hl, rfl⟩ := (State.whenLegal_next_iff _ _ _ _).mp h
    exact ⟨hl, by simp, by simp, by simp, fun d hd => by simp [State.agent_setAgent_of_ne _ _ _ _ hd]⟩
  | empty f =>
    obtain ⟨hl, rfl⟩ := (State.whenLegal_next_iff _ _ _ _).mp h
    exact ⟨hl, by simp, by simp, by simp, fun d hd => by simp [State.agent_setAgent_of_ne _ _ _ _ hd]⟩
  | full f =>
    obtain ⟨hl, rfl⟩ := (State.whenLegal_next_iff _ _ _ _).mp h
    exact ⟨hl, by simp, by simp, by simp, fun d hd => by simp [State.agent_setAgent_of_ne _ _ _ _ hd]⟩
  | len f =>
    obtain ⟨hl, rfl⟩ := (State.whenLegal_next_iff _ _ _ _).mp h
    exact ⟨hl, by simp, by simp, by simp, fun d hd => by simp [State.agent_setAgent_of_ne _ _ _ _ hd]⟩
  | tinit =>
    obtain ⟨hl, rfl⟩ := (State.whenLegal_next_iff _ _ _ _).mp h
    exact ⟨hl, by simp, by simp, by simp, fun d hd => by simp [State.agent_setAgent_of_ne _ _ _ _ hd]⟩
  | write av payload =>
    obtain ⟨hl, rfl⟩ := (State.whenLegal_next_iff _ _ _ _).mp h
    refine ⟨hl, ?_, ?_, ?_, fun d hd => ?_⟩ <;>
      (split
       · split
         · unfold State.writeOut
           simp only
           split <;> simp [State.agent_setAgent_of_ne, *]
         · simp [State.agent_setAgent_of_ne, *]
       · simp [State.agent_setAgent_of_ne, *])
  | read1 =>
    obtain ⟨hl, rfl⟩ := (State.whenLegal_next_iff _ _ _ _).mp h
    exact ⟨hl, by simp, by simp, by simp, fun d hd => by simp [State.agent_setAgent_of_ne _ _ _ _ hd]⟩
  | rxirq =>
    obtain ⟨hl, rfl⟩ := (State.whenLegal_next_iff _ _ _ _).mp h
    refine ⟨hl, ?_, ?_, ?_, fun d hd => ?_⟩ <;>
      (split
       · simp [State.agent_setAgent_of_ne, *]
       · unfold State.storeRx
         split <;> simp [State.agent_setAgent_of_ne, *])
  | txirq =>
    obtain ⟨hl, rfl⟩ := (State.whenLegal_next_iff _ _ _ _).mp h
    refine ⟨hl, ?_, ?_, ?_, fun d hd => ?_⟩ <;>
      (split <;> simp [State.agent_setAgent_of_ne, *])

end Sys2Proof.Machine
end

