-- ==== Sys2Proof/Laws/PerInstr.lean ====
section
/-! SUPPORT. One statement about every operation as syntax, one lemma per constructor: the code the encoder
gives it belongs to its row of the opcode map (`cc & mask == match`, 30_encoding.md R64) and is well formed. -/

namespace Sys2Proof.Laws.Encoded

/-- The operation's code is one of its row's, and no reserved code. -/
def Statement (i : Instr) : Prop :=
  (encode i).cc &&& (rowOf i).2 = (rowOf i).1 ∧ (encode i).wellFormed = true

/-- Both halves are about the code alone, whatever the operands beside it (R65). -/
theorem statement_of_code (i : Instr) (c m k : Code) (hc : codeOf i = c) (hr : rowOf i = (m, k))
    (hm : c &&& k = m) (hw : (Command.mk c .zero).wellFormed = true) : Statement i := by
  subst hc
  refine ⟨?_, hw⟩
  rw [hr]
  exact hm

theorem init (f : Inst) : Statement (.init f) := by
  cases f
  · exact statement_of_code _ 0x00#8 0x00#8 0xEF#8 rfl rfl (by decide) (by decide)
  · exact statement_of_code _ 0x10#8 0x00#8 0xEF#8 rfl rfl (by decide) (by decide)

theorem enq (f : Inst) (av : Bool) (payload : List Byte) : Statement (.enq f av payload) := by
  cases f
  · exact statement_of_code _ 0x01#8 0x01#8 0xEF#8 rfl rfl (by decide) (by decide)
  · exact statement_of_code _ 0x11#8 0x01#8 0xEF#8 rfl rfl (by decide) (by decide)

theorem deq (f : Inst) (av : Bool) (maxCount : Nat) : Statement (.deq f av maxCount) := by
  cases f
  · exact statement_of_code _ 0x02#8 0x02#8 0xEF#8 rfl rfl (by decide) (by decide)
  · exact statement_of_code _ 0x12#8 0x02#8 0xEF#8 rfl rfl (by decide) (by decide)

theorem empty (f : Inst) : Statement (.empty f) := by
  cases f
  · exact statement_of_code _ 0x03#8 0x03#8 0xEF#8 rfl rfl (by decide) (by decide)
  · exact statement_of_code _ 0x13#8 0x03#8 0xEF#8 rfl rfl (by decide) (by decide)

theorem full (f : Inst) : Statement (.full f) := by
  cases f
  · exact statement_of_code _ 0x04#8 0x04#8 0xEF#8 rfl rfl (by decide) (by decide)
  · exact statement_of_code _ 0x14#8 0x04#8 0xEF#8 rfl rfl (by decide) (by decide)

theorem len (f : Inst) : Statement (.len f) := by
  cases f
  · exact statement_of_code _ 0x05#8 0x05#8 0xEF#8 rfl rfl (by decide) (by decide)
  · exact statement_of_code _ 0x15#8 0x05#8 0xEF#8 rfl rfl (by decide) (by decide)

theorem tinit : Statement .tinit :=
  statement_of_code _ 0x08#8 0x08#8 0xFF#8 rfl rfl (by decide) (by decide)

theorem write (av : Bool) (payload : List Byte) : Statement (.write av payload) :=
  statement_of_code _ 0x09#8 0x09#8 0xFF#8 rfl rfl (by decide) (by decide)

theorem read1 : Statement .read1 :=
  statement_of_code _ 0x0A#8 0x0A#8 0xFF#8 rfl rfl (by decide) (by decide)

theorem rxirq : Statement .rxirq :=
  statement_of_code _ 0x0B#8 0x0B#8 0xFF#8 rfl rfl (by decide) (by decide)

theorem txirq : Statement .txirq :=
  statement_of_code _ 0x0C#8 0x0C#8 0xFF#8 rfl rfl (by decide) (by decide)

end Sys2Proof.Laws.Encoded
end

