-- ==== Sys2Proof/Tests/Slice0.lean ====
section
/-! SUPPORT. Tests against 95_test_vectors.md (expected values from its tables, named by vector id), the
well-formedness smoke, one word per operation written out from 30_encoding.md R64, and for every statement with
hypotheses a state that meets them together. -/

namespace Sys2Proof.Tests

open Sys2Proof Sys2Proof.Machine

/-! ## Well-formedness: an ill-formed command for each check, and a good one -/

theorem test_rsv_not_zero_is_ill_formed :
    (⟨0b00100000#8, .zero⟩ : Command).rsvZero = false ∧ (⟨0b00100000#8, .zero⟩ : Command).wellFormed = false := by
  decide

theorem test_unassigned_op_is_ill_formed :
    (⟨0b00000110#8, .zero⟩ : Command).opAssigned = false ∧ (⟨0b00001101#8, .zero⟩ : Command).opAssigned = false ∧
    (⟨0b00000110#8, .zero⟩ : Command).wellFormed = false := by decide

theorem test_sel_with_format_t_is_ill_formed :
    (⟨0b00011000#8, .zero⟩ : Command).selAllowed = false ∧ (⟨0b00011100#8, .zero⟩ : Command).selAllowed = false ∧
    (⟨0b00011000#8, .zero⟩ : Command).wellFormed = false := by decide

theorem test_assigned_codes_are_well_formed :
    (⟨0b00010101#8, .zero⟩ : Command).wellFormed = true ∧ (⟨0b00001100#8, .zero⟩ : Command).wellFormed = true := by
  decide

/-! ## Decoding: words written bit by bit, RSV SEL OP (R61, R64) -/

theorem test_decode_init :
    decode ⟨0b00000000#8, .zero⟩ = .instr (.init .inbound) ∧
    decode ⟨0b00010000#8, .zero⟩ = .instr (.init .outbound) := by decide

theorem test_decode_enq :
    decode ⟨0b00000001#8, ⟨true, [0x61#8], 7⟩⟩ = .instr (.enq .inbound true [0x61#8]) ∧
    decode ⟨0b00010001#8, ⟨true, [0x61#8], 7⟩⟩ = .instr (.enq .outbound true [0x61#8]) := by decide

theorem test_decode_deq :
    decode ⟨0b00000010#8, ⟨true, [0x61#8], 7⟩⟩ = .instr (.deq .inbound true 7) ∧
    decode ⟨0b00010010#8, ⟨false, [], 7⟩⟩ = .instr (.deq .outbound false 7) := by decide

theorem test_decode_observers :
    decode ⟨0b00000011#8, .zero⟩ = .instr (.empty .inbound) ∧
    decode ⟨0b00010011#8, .zero⟩ = .instr (.empty .outbound) ∧
    decode ⟨0b00000100#8, .zero⟩ = .instr (.full .inbound) ∧
    decode ⟨0b00010100#8, .zero⟩ = .instr (.full .outbound) ∧
    decode ⟨0b00000101#8, .zero⟩ = .instr (.len .inbound) ∧
    decode ⟨0b00010101#8, .zero⟩ = .instr (.len .outbound) := by decide

theorem test_decode_transport :
    decode ⟨0b00001000#8, .zero⟩ = .instr .tinit ∧
    decode ⟨0b00001001#8, ⟨true, [0x6F#8, 0x6B#8], 0⟩⟩ = .instr (.write true [0x6F#8, 0x6B#8]) ∧
    decode ⟨0b00001010#8, .zero⟩ = .instr .read1 ∧
    decode ⟨0b00001011#8, .zero⟩ = .instr .rxirq ∧
    decode ⟨0b00001100#8, .zero⟩ = .instr .txirq := by decide

/-- Part 4's table of reserved codes: 0x89 is not `WRITE`. -/
theorem test_decode_reserved :
    decode ⟨0x06#8, .zero⟩ = .reserved .opUnassigned ∧ decode ⟨0x1F#8, .zero⟩ = .reserved .opUnassigned ∧
    decode ⟨0x18#8, .zero⟩ = .reserved .selNotZero ∧ decode ⟨0x20#8, .zero⟩ = .reserved .rsvNotZero ∧
    decode ⟨0x89#8, .zero⟩ = .reserved .rsvNotZero ∧ decode ⟨0xFF#8, .zero⟩ = .reserved .rsvNotZero := by decide

/-- R69's spelling. -/
theorem test_spell : (Instr.enq .outbound true [0x61#8, 0x0A#8]).spell = "ENQ.OUT [0x61 0x0A]" ∧
    (Instr.enq1 .inbound 0x6F#8).spell = "ENQ.IN [0x6F]" ∧ (Instr.deq .inbound false 3).spell = "DEQ.IN null" ∧
    (Instr.deq1 .outbound).spell = "DEQ.OUT 1" := by decide

/-! ## Small states -/

/-- Capacity 256, registers and slots as given. -/
def buf256 (mem : List Host.Cell) (widx ridx count : Nat) (full : Bool) : Buffer :=
  { k := 8, mem := mem, widx := widx, ridx := ridx, count := count, full := full }

/-- The same with capacity 8. -/
def buf8 (mem : List Host.Cell) (widx ridx count : Nat) (full : Bool) : Buffer :=
  { k := 3, mem := mem, widx := widx, ridx := ridx, count := count, full := full }

/-- Both buffers exercised alone by the test agent (R68, last paragraph). -/
def bench (inb outb : Buffer) : State :=
  { State.reset with inb := inb, outb := outb, initIn := true, initOut := true }

/-- An assembled transport after `TINIT`, the foreground about to issue. -/
def transport (inb outb : Buffer) (en : Bool) : State :=
  { State.reset with
    inb := inb, outb := outb, initIn := true, initOut := true, booted := true
    per := { Peripheral.powerOn with txIrqEn := en } }

/-- The transport with a received pair pending and the inbound path about to run. -/
def received (s : State) (b : Byte) (e : Bool) : State :=
  { s with issuer := .rxi, per := { s.per with rxReady := true, rxData := b, rxErr := e } }

/-- The transport with the transmit register empty and the outbound path about to run. -/
def sendable (s : State) : State := { s with issuer := .txi, per := { s.per with txEmpty := true } }

/-- The next state, if there is one. -/
def after (o : Host.Outcome State Fault Refusal) : Option State :=
  match o with
  | .next t => some t
  | .fault _ => none
  | .refused _ => none

/-- The four registers, as the vectors write them. -/
def regs (b : Buffer) : Nat × Nat × Nat × Bool := (b.widx, b.ridx, b.count, b.full)

/-! ## The buffer operations (Part 2) -/

/-- B1: slots keep their bytes. -/
theorem test_init_b1 :
    (after (exec (.init .outbound) (bench (Buffer.powerOn 8) (buf256 [(17, 0x5A#8)] 17 250 23 true)))).map
      (fun t => (regs t.outb, t.outb.mem)) = some ((0, 0, 0, false), [(17, 0x5A#8)]) := by decide

/-- B7: two of five bytes fit, the write index wraps. -/
theorem test_enq_b7 :
    (after (exec (.enq .inbound true [1#8, 2#8, 3#8, 4#8, 5#8]) (bench (buf256 [] 254 0 254 false) (Buffer.powerOn 8)))).map
      (fun t => (regs t.inb, t.inb.mem, t.fg.result)) =
      some ((0, 0, 256, true), [(254, 1#8), (255, 2#8)], some (.accepted 2)) := by decide

/-- B23: three bytes across the wrap, capacity 8. -/
theorem test_enq_b23 :
    (after (exec (.enq .outbound true [0xA0#8, 0xA1#8, 0xA2#8]) (bench (Buffer.powerOn 3) (buf8 [] 7 5 2 false)))).map
      (fun t => (regs t.outb, t.outb.mem, t.fg.result)) =
      some ((2, 5, 5, false), [(0, 0xA1#8), (1, 0xA2#8), (7, 0xA0#8)], some (.accepted 3)) := by decide

/-- B16: the read index wraps. -/
theorem test_deq_b16 :
    (after (exec (.deq .inbound true 3)
      (bench (buf256 [(0, 0x11#8), (1, 0x12#8), (255, 0x10#8)] 2 255 3 false) (Buffer.powerOn 8)))).map
      (fun t => (regs t.inb, t.fg.result)) =
      some ((2, 2, 0, false), some (.removed [0x10#8, 0x11#8, 0x12#8] 3)) := by decide

/-- B14: an empty buffer gives nothing and keeps its indices. -/
theorem test_deq_b14 :
    (after (exec (.deq .outbound true 1) (bench (Buffer.powerOn 8) (buf256 [] 9 9 0 false)))).map
      (fun t => (regs t.outb, t.fg.result)) = some ((9, 9, 0, false), some (.removed [] 0)) := by decide

/-- B20: the count decides, not the flag. -/
theorem test_observers_b20 :
    let s := bench (buf256 [] 4 4 256 false) (Buffer.powerOn 8)
    (after (exec (.empty .inbound) s)).map (fun t => t.fg.result) = some (some (.bool false)) ∧
    (after (exec (.full .inbound) s)).map (fun t => t.fg.result) = some (some (.bool true)) ∧
    (after (exec (.len .inbound) s)).map (fun t => t.fg.result) = some (some (.count 256)) := by decide

/-- B18. -/
theorem test_observers_b18 :
    let s := bench (Buffer.powerOn 8) (buf256 [] 3 0 3 false)
    (after (exec (.empty .outbound) s)).map (fun t => t.fg.result) = some (some (.bool false)) ∧
    (after (exec (.full .outbound) s)).map (fun t => t.fg.result) = some (some (.bool false)) ∧
    (after (exec (.len .outbound) s)).map (fun t => t.fg.result) = some (some (.count 3)) ∧
    s.outb.free = 253 := by decide

/-! ## The foreground transport operations (Part 3) -/

/-- T1: `TINIT` at power-on. -/
theorem test_tinit_t1 :
    (after (exec .tinit State.reset)).map (fun t => (regs t.inb, regs t.outb, t.per.txIrqEn, t.booted)) =
      some ((0, 0, 0, false), (0, 0, 0, false), false, true) := by decide

/-- T3: a second `TINIT` is refused. -/
theorem test_tinit_t3 :
    exec .tinit (transport (Buffer.powerOn 8) (Buffer.powerOn 8) false) = .refused .secondTinit := by
  simp [exec, execTinit, State.whenLegal, legality, firstRefusal, State.notForeground, transport, State.reset]

/-- T4. -/
theorem test_write_t4 :
    (after (exec (.write true [0x6F#8, 0x6B#8]) (transport (Buffer.powerOn 8) (Buffer.powerOn 8) false))).map
      (fun t => (regs t.outb, t.per.txIrqEn, t.fg.result)) =
      some ((2, 0, 2, false), true, some (.status .ok)) := by decide

/-- T8: held at W1. -/
theorem test_write_t8 :
    (after (exec (.write true [1#8, 2#8, 3#8, 4#8, 5#8, 6#8, 7#8, 8#8])
      (transport (Buffer.powerOn 3) (buf8 [(0, 9#8)] 1 0 1 false) true))).map
      (fun t => (regs t.outb, t.fg.inflight.isSome)) = some ((1, 0, 1, false), true) := by decide

/-- T12: the first of two bytes. -/
theorem test_read1_t12 :
    (after (exec .read1 (transport (buf256 [(0, 0x68#8), (1, 0x69#8)] 2 0 2 false) (Buffer.powerOn 8) false))).map
      (fun t => (regs t.inb, t.fg.result)) = some ((2, 1, 1, false), some (.byte (some 0x68#8))) := by decide

/-- T11: nothing to read. -/
theorem test_read1_t11 :
    (after (exec .read1 (transport (Buffer.powerOn 8) (Buffer.powerOn 8) false))).map
      (fun t => (regs t.inb, t.fg.result)) = some ((0, 0, 0, false), some (.byte none)) := by decide

/-! ## The interrupt paths (Part 4) -/

/-- I1: stored. -/
theorem test_rxirq_i1 :
    (after (exec .rxirq (received (transport (Buffer.powerOn 8) (Buffer.powerOn 8) false) 0x68#8 false))).map
      (fun t => (regs t.inb, t.inb.mem, t.per.rxReady)) = some ((1, 0, 1, false), [(0, 0x68#8)], false) := by decide

/-- I4: full and a line error: the error path. -/
theorem test_rxirq_i4 :
    (after (exec .rxirq (received (transport (buf256 [] 0 0 256 true) (Buffer.powerOn 8) false) 0xEE#8 true))).map
      (fun t => (regs t.inb, t.inb.mem, t.per.rxReady, t.per.rxErr)) = some ((0, 0, 256, true), [], false, false) := by
  decide

/-- S8, third step: the first firing sends "o". -/
theorem test_txirq_s8_first :
    (after (exec .txirq (sendable (transport (Buffer.powerOn 3) (buf8 [(0, 0x6F#8), (1, 0x6B#8)] 2 0 2 false) true)))).map
      (fun t => (regs t.outb, t.per.txIrqEn, t.per.txData, t.per.txEmpty)) =
      some ((2, 1, 1, false), true, 0x6F#8, false) := by decide

/-- S8, fifth step: the third firing finds the buffer empty. -/
theorem test_txirq_s8_third :
    (after (exec .txirq (sendable (transport (Buffer.powerOn 3) (buf8 [] 2 2 0 false) true)))).map
      (fun t => (regs t.outb, t.per.txIrqEn, t.per.txEmpty)) = some ((2, 2, 0, false), false, true) := by decide

/-! ## Micro-steps (Part 5) -/

/-- X1: the foreground's D4 after the race, one micro-step: the flag goes, the count stays. -/
theorem test_micro_x1_d4 :
    (after (tick .fg { transport (buf8 [(3, 0x22#8)] 4 4 8 true) (Buffer.powerOn 3) false with
      fg := { inflight := some (.read1 (.x1 { out := [], pos := .d4 0x11#8 })), result := none } })).map
      (fun t => (regs t.inb, t.fg.inflight)) =
      some ((4, 4, 8, false), some (.read1 (.x1 { out := [], pos := .p4 (some 0x11#8) }))) := by decide

/-- X5 (a): no foreground micro-step falls between TX1 and TX5 of an activation. -/
theorem test_micro_x5_preempted :
    tick .fg { transport (Buffer.powerOn 3) (Buffer.powerOn 3) true with
      active := [.txi], fg := { inflight := some (.write true [] .w3), result := none }
      txi := { inflight := some (.txirq (.tx2 [])), result := none } } = .refused .preempted := by
  simp [tick, State.agent, State.mayMove]

/-- R161: with no request served there is no interrupt context, so no observer of a handler's; inside its activation
there is one, and the activation goes on where it stood. -/
theorem test_handler_observer_inside_only :
    exec (.len .outbound) { transport (Buffer.powerOn 3) (buf8 [] 2 0 2 false) true with issuer := .rxi } =
      .refused .outsideActivation ∧
    (after (exec (.len .outbound) { transport (Buffer.powerOn 3) (buf8 [] 2 0 2 false) true with
      issuer := .rxi, active := [.rxi], rxi := { inflight := some (.rxirq .rx7), result := none } })).map
      (fun t => (t.rxi.inflight, t.rxi.result, t.active)) =
      some (some (.rxirq .rx7), some (.count 2), [.rxi]) := ⟨rfl, by decide⟩

/-! ## Witnesses: for each statement with hypotheses, a state and operands that meet them together

The name says which statement; where a statement has several clauses, the conjuncts go clause by clause. -/

/-- A run in the middle, capacity 2: the foreground inside a `WRITE`, before the increment E3 of its byte; a
`TXIRQ` activation inside it, before the read D1 of the oldest byte. -/
def midRun : State :=
  { transport ⟨1, [(0, 0x61#8)], 1, 0, 1, false⟩ ⟨1, [(0, 0x6F#8), (1, 0x6B#8)], 0, 0, 1, false⟩ true with
    fg := { inflight := some (.write true [0x6B#8] (.w2 { accepted := 0, pos := .e3 })), result := none }
    txi := { inflight := some (.txirq (.tx1 { out := [], pos := .d1 })), result := none }
    active := [.txi] }

/-- Two micro-steps later: the activation stands before its decrement D3. -/
def midRunD3 : State :=
  { midRun with
    outb := ⟨1, [(0, 0x6F#8), (1, 0x6B#8)], 0, 1, 1, false⟩
    txi := { inflight := some (.txirq (.tx1 { out := [], pos := .d3 0x6F#8 })), result := none } }

/-- The same foreground and no activation. -/
def midWrite : State := { midRun with txi := AgentState.idle, active := [] }

/-- One micro-step of the `WRITE` before its store: E1. -/
def midStore : State :=
  { midWrite with
    outb := ⟨1, [(0, 0x6F#8)], 1, 0, 1, false⟩
    fg := { inflight := some (.write true [0x6B#8] (.w2 { accepted := 0, pos := .e1 0x6B#8 })), result := none } }

/-- Nothing in flight: `IN` full across the wrap, `OUT` with one of two bytes, the transmit register empty. -/
def between : State :=
  { transport ⟨1, [(0, 0x62#8), (1, 0x61#8)], 1, 1, 2, true⟩ ⟨1, [(0, 0x6F#8)], 1, 0, 1, false⟩ true with
    per := { Peripheral.powerOn with txEmpty := true, txIrqEn := true } }

/-- Idle transmitter: `OUT` empty and the transmit interrupt disabled. -/
def idleTx : State := transport (Buffer.powerOn 1) (Buffer.powerOn 1) false

theorem midRun_inv : midRun.Inv := by
  refine ⟨?_, ?_, ?_, ⟨?_, ?_, ?_⟩, ?_, ?_, ⟨?_, ?_⟩, ⟨?_, ?_, ?_⟩⟩
  · intro f; cases f <;> (unfold Buffer.InRange; decide)
  · intro f; cases f <;> (unfold Buffer.StorageOk; decide)
  · intro a o h; cases a <;> cases h <;> rfl
  · decide
  · decide
  · intro a h; cases a <;> simp_all [midRun, transport, State.reset, State.agent, AgentState.idle]
  · exact ⟨by decide, trivial⟩
  · intro f _
    cases f
    · exact ⟨by decide, by decide, trivial, trivial⟩
    · refine ⟨by decide, by decide, ?_, ?_⟩
      · simp only [ProducerOk, midRun, State.producing, Option.bind, Op.enqOn, if_true]; decide
      · simp only [ConsumerOk, midRun, State.consuming, Option.bind, Op.deqOn, if_true, Option.or]; decide
  · intro av p r h
    cases h
    exact ⟨by decide, by simp⟩
  · intro b r h; cases h
  · intro _ _ h; cases h
  · intro h; cases h
  · intro r h; cases h; rfl

theorem midRunD3_inv : midRunD3.Inv := by
  refine ⟨?_, ?_, ?_, ⟨?_, ?_, ?_⟩, ?_, ?_, ⟨?_, ?_⟩, ⟨?_, ?_, ?_⟩⟩
  · intro f; cases f <;> (unfold Buffer.InRange; decide)
  · intro f; cases f <;> (unfold Buffer.StorageOk; decide)
  · intro a o h; cases a <;> cases h <;> rfl
  · decide
  · decide
  · intro a h; cases a <;> simp_all [midRunD3, midRun, transport, State.reset, State.agent, AgentState.idle]
  · exact ⟨by decide, trivial⟩
  · intro f _
    cases f
    · exact ⟨by decide, by decide, trivial, trivial⟩
    · refine ⟨by decide, by decide, ?_, ?_⟩
      · simp only [ProducerOk, midRunD3, midRun, State.producing, Option.bind, Op.enqOn, if_true]; decide
      · simp only [ConsumerOk, midRunD3, midRun, State.consuming, Option.bind, Op.deqOn, if_true, Option.or]; decide
  · intro av p r h
    cases h
    exact ⟨by decide, by simp⟩
  · intro b r h; cases h
  · intro _ _ h; cases h
  · intro h; cases h
  · intro r h; cases h; rfl

theorem midWrite_inv : midWrite.Inv := by
  refine ⟨?_, ?_, ?_, ⟨?_, ?_, ?_⟩, ?_, ?_, ⟨?_, ?_⟩, ⟨?_, ?_, ?_⟩⟩
  · intro f; cases f <;> (unfold Buffer.InRange; decide)
  · intro f; cases f <;> (unfold Buffer.StorageOk; decide)
  · intro a o h; cases a <;> cases h; rfl
  · decide
  · decide
  · intro a h; cases a <;> simp_all [midWrite, midRun, transport, State.reset, State.agent, AgentState.idle]
  · exact ⟨by decide, trivial⟩
  · intro f _
    cases f
    · exact ⟨by decide, by decide, trivial, trivial⟩
    · refine ⟨by decide, by decide, ?_, trivial⟩
      simp only [ProducerOk, midWrite, midRun, State.producing, Option.bind, Op.enqOn, if_true]; decide
  · intro av p r h
    cases h
    exact ⟨by decide, by simp⟩
  · intro b r h; cases h
  · intro _ _ h; cases h
  · intro h; cases h
  · intro r h; cases h

theorem midStore_inv : midStore.Inv := by
  refine ⟨?_, ?_, ?_, ⟨?_, ?_, ?_⟩, ?_, ?_, ⟨?_, ?_⟩, ⟨?_, ?_, ?_⟩⟩
  · intro f; cases f <;> (unfold Buffer.InRange; decide)
  · intro f; cases f <;> (unfold Buffer.StorageOk; decide)
  · intro a o h; cases a <;> cases h; rfl
  · decide
  · decide
  · intro a h; cases a <;> simp_all [midStore, midWrite, midRun, transport, State.reset, State.agent, AgentState.idle]
  · exact ⟨by decide, trivial⟩
  · intro f _
    cases f
    · exact ⟨by decide, by decide, trivial, trivial⟩
    · refine ⟨by decide, by decide, ?_, trivial⟩
      simp only [ProducerOk, midStore, State.producing, Option.bind, Op.enqOn, if_true]; decide
  · intro av p r h
    cases h
    exact ⟨by decide, by simp⟩
  · intro b r h; cases h
  · intro _ _ h; cases h
  · intro h; cases h
  · intro r h; cases h

theorem between_inv : between.Inv := by
  refine ⟨?_, ?_, ?_, ⟨?_, ?_, ?_⟩, ?_, ?_, ⟨?_, ?_⟩, ⟨?_, ?_, ?_⟩⟩
  · intro f; cases f <;> (unfold Buffer.InRange; decide)
  · intro f; cases f <;> (unfold Buffer.StorageOk; decide)
  · intro a o h; cases a; all_goals contradiction
  · decide
  · decide
  · intro a h; cases a <;> simp_all [between, transport, State.reset, State.agent, AgentState.idle]
  · exact ⟨by decide, trivial⟩
  · intro f _
    cases f <;> exact ⟨by decide, by decide, trivial, trivial⟩
  · intro av p r h; cases h
  · intro b r h; cases h
  · intro _ _ h; cases h
  · intro h; cases h
  · intro r h; cases h

theorem idleTx_inv : idleTx.Inv := by
  refine ⟨?_, ?_, ?_, ⟨?_, ?_, ?_⟩, ?_, ?_, ⟨?_, ?_⟩, ⟨?_, ?_, ?_⟩⟩
  · intro f; cases f <;> (unfold Buffer.InRange; decide)
  · intro f; cases f <;> (unfold Buffer.StorageOk; decide)
  · intro a o h; cases a; all_goals contradiction
  · decide
  · decide
  · intro a h; cases a <;> simp_all [idleTx, transport, State.reset, State.agent, AgentState.idle]
  · exact ⟨by decide, trivial⟩
  · intro f _
    cases f <;> exact ⟨by decide, by decide, trivial, trivial⟩
  · intro av p r h; cases h
  · intro b r h; cases h
  · intro _ _ _; rfl
  · intro h; cases h
  · intro r h; cases h

/-- The last byte has gone, the transmit register is empty and the interrupt still enabled (S8, step 4). -/
def drained : State :=
  { idleTx with per := { Peripheral.powerOn with txEmpty := true, txIrqEn := true } }

theorem drained_inv : drained.Inv := by
  refine ⟨idleTx_inv.inRange, idleTx_inv.storage, idleTx_inv.roles, ⟨?_, ?_, ?_⟩, ?_, ?_, ⟨?_, ?_⟩, ⟨?_, ?_, ?_⟩⟩
  · decide
  · decide
  · intro a h; exact idleTx_inv.nesting.exact a h
  · exact ⟨by decide, trivial⟩
  · exact idleTx_inv.ring
  · intro av p r h; cases h
  · intro b r h; cases h
  · intro _ _ _; rfl
  · intro h; cases h
  · intro r h; cases h

/-- The transmitter idle and a received byte waiting. -/
def pending : State :=
  { idleTx with per := { Peripheral.powerOn with rxReady := true, rxData := 0x68#8 } }

theorem pending_inv : pending.Inv := by
  refine ⟨idleTx_inv.inRange, idleTx_inv.storage, idleTx_inv.roles, ⟨?_, ?_, ?_⟩, ?_, ?_, ⟨?_, ?_⟩, ⟨?_, ?_, ?_⟩⟩
  · decide
  · decide
  · intro a h; exact idleTx_inv.nesting.exact a h
  · exact ⟨by decide, trivial⟩
  · exact idleTx_inv.ring
  · intro av p r h; cases h
  · intro b r h; cases h
  · intro _ _ _; rfl
  · intro h; cases h
  · intro r h; cases h

/-! ### Encoding -/

theorem witness_DecodedCodeIsTheOperationsCode :
    decode ⟨0x11#8, ⟨true, [0x61#8], 0⟩⟩ = .instr (.enq .outbound true [0x61#8]) ∧
    (⟨0x11#8, ⟨true, [0x61#8], 0⟩⟩ : Command).wellFormed = true := by decide

theorem witness_ReservedCodesAreRefused :
    decode ⟨0xE0#8, .zero⟩ = .reserved .rsvNotZero ∧ decode ⟨0x0F#8, .zero⟩ = .reserved .opUnassigned ∧
    decode ⟨0x1C#8, .zero⟩ = .reserved .selNotZero := by decide

theorem witness_StepRunsTheDecodedOperation : decode ⟨0x0C#8, .zero⟩ = .instr .txirq := by decide

theorem witness_PlacedWordRunsAndCompletes : decodeTableWord 8 0x15 = some (.len .outbound) := by decide

/-! ### The buffer -/

/-- One buffer alone, full across the wrap. -/
def benchFull : State := bench ⟨1, [(0, 0x62#8), (1, 0x61#8)], 1, 1, 2, true⟩ (Buffer.powerOn 1)

/-- One buffer alone, empty with its indices at the last slot. -/
def benchEmpty : State := bench (buf8 [] 7 7 0 false) (Buffer.powerOn 3)

theorem benchFull_ready : benchFull.BenchReady .inbound := ⟨⟨rfl, rfl, rfl⟩, rfl, rfl⟩

theorem benchEmpty_ready : benchEmpty.BenchReady .inbound := ⟨⟨rfl, rfl, rfl⟩, rfl, rfl⟩

theorem witness_EmptyReportsCountZero : idleTx.ObserverReady .outbound :=
  ⟨rfl, .inl ⟨rfl, rfl, rfl⟩⟩

/-- The foreground between its operations, and a handler inside its activation. -/
theorem witness_FullReportsCountEqualsCapacity :
    between.ObserverReady .inbound ∧ ({ midRun with issuer := .txi } : State).ObserverReady .inbound :=
  ⟨⟨rfl, .inl ⟨rfl, rfl, rfl⟩⟩, ⟨rfl, .inr ⟨by decide, rfl, rfl⟩⟩⟩

theorem witness_LenReportsCount : between.ObserverReady .inbound ∧ between.Inv :=
  ⟨⟨rfl, .inl ⟨rfl, rfl, rfl⟩⟩, between_inv⟩

theorem witness_InitAndTinitEnterTheEmptyState : State.reset.FgReady ∧ State.reset.booted = false :=
  ⟨⟨rfl, rfl, rfl⟩, rfl⟩

theorem witness_SequentialMeaningOverContents :
    benchFull.BenchReady .inbound ∧ (benchFull.buf .inbound).InRange ∧ RingOk (benchFull.buf .inbound) none none ∧
    (benchFull.buf .inbound).FlagOk :=
  ⟨benchFull_ready, by unfold Buffer.InRange; decide, ⟨by decide, by decide, trivial, trivial⟩,
    by unfold Buffer.FlagOk; decide⟩

theorem witness_NullArgumentMovesNothing : benchFull.BenchReady .inbound := benchFull_ready

theorem witness_EnqStoresItsBytesAndNothingElse :
    benchEmpty.BenchReady .inbound ∧ (benchEmpty.buf .inbound).InRange :=
  ⟨benchEmpty_ready, by unfold Buffer.InRange; decide⟩

theorem witness_DeqWritesNoSlot : benchFull.BenchReady .inbound := benchFull_ready

/-- A payload of exactly C bytes. -/
theorem witness_EnqueuedBytesComeBackInOrder :
    benchEmpty.BenchReady .inbound ∧ (benchEmpty.buf .inbound).InRange ∧
    RingOk (benchEmpty.buf .inbound) none none ∧ (benchEmpty.buf .inbound).count = 0 ∧
    (List.replicate 8 (0x7A#8 : Byte)).length ≤ (benchEmpty.buf .inbound).cap :=
  ⟨benchEmpty_ready, by unfold Buffer.InRange; decide, ⟨by decide, by decide, trivial, trivial⟩, rfl, by decide⟩

theorem witness_LengthIsEnqueuedMinusDequeued :
    benchFull.BenchReady .inbound ∧ (benchFull.buf .inbound).InRange ∧
    (∀ i ∈ [Instr.deq .inbound true 1, .enq .inbound true [1#8, 2#8], .init .inbound], movesBytes .inbound i) ∧
    (benchFull.buf .inbound).count + 5 = 7 :=
  ⟨benchFull_ready, by unfold Buffer.InRange; decide, by simp [movesBytes], rfl⟩

theorem witness_InstancesAreIndependent :
    bufferOf (.enq .inbound true [1#8]) = some .inbound ∧ Inst.outbound ≠ .inbound ∧
    (∃ t, exec (.enq .inbound true [1#8]) benchEmpty = .next t) ∧
    (∃ r, exec (.enq .inbound true [1#8]) State.reset = .refused r) :=
  ⟨rfl, by decide, ⟨_, rfl⟩, ⟨_, rfl⟩⟩

/-! ### The foreground transport -/

theorem between_ready : between.TransportReady := ⟨⟨rfl, rfl, rfl⟩, rfl⟩

/-- A payload that takes exactly the free space. -/
theorem witness_WriteEnqueuesAllAndEnables :
    between.TransportReady ∧ [0x6B#8].length ≤ between.outb.free ∧ between.outb.InRange ∧
    RingOk between.outb none none :=
  ⟨between_ready, by decide, by unfold Buffer.InRange; decide, ⟨by decide, by decide, trivial, trivial⟩⟩

/-- Clause by clause: one byte more than the free space; held at W1 with the same payload; more than C bytes. -/
theorem witness_WriteIsHeldWithoutRoom :
    (between.TransportReady ∧ between.outb.free < [1#8, 2#8].length) ∧
    (∃ s : State, s.fg = { inflight := some (.write true [1#8, 2#8] .w1), result := none } ∧ s.active = [] ∧
      s.outb.free < [1#8, 2#8].length) ∧
    between.outb.cap < [1#8, 2#8, 3#8].length :=
  ⟨⟨between_ready, by decide⟩,
    ⟨{ between with fg := { inflight := some (.write true [1#8, 2#8] .w1), result := none } }, rfl, rfl, by decide⟩,
    by decide⟩

theorem witness_WriteNullFailsAtOnce : between.TransportReady := between_ready

/-- The foreground at W1: with room it leaves, without room it stays. -/
theorem witness_OnlyRoomEndsTheWait :
    (∃ s t, s.fg.inflight = some (.write true [1#8] .w1) ∧ step s = .next t ∧
      t.fg.inflight = some (.write true [1#8] (.w2 { accepted := 0, pos := .q0 }))) ∧
    (∃ s t, s.fg.inflight = some (.write true [1#8, 2#8] .w1) ∧ step s = .next t ∧
      t.fg.inflight = some (.write true [1#8, 2#8] .w1)) :=
  ⟨⟨{ between with fg := { inflight := some (.write true [1#8] .w1), result := none }, todo := [.tick .fg] }, _,
      rfl, rfl, rfl⟩,
    ⟨{ between with fg := { inflight := some (.write true [1#8, 2#8] .w1), result := none }, todo := [.tick .fg] }, _,
      rfl, rfl, rfl⟩⟩

/-- Three bytes, capacity 2, a whole `TXIRQ` and a re-reading of the count. -/
theorem witness_OversizedWriteNeverReturns :
    ∃ s t : State, s.fg.inflight = some (.write true [1#8, 2#8, 3#8] .w1) ∧
      s.outb.cap < [1#8, 2#8, 3#8].length ∧ Host.Core.run core 2 s = .next t ∧ t.todo = [] :=
  ⟨{ between with
      fg := { inflight := some (.write true [1#8, 2#8, 3#8] .w1), result := none }
      per := { between.per with txEmpty := true }
      todo := [.issue .txi ⟨0x0C#8, .zero⟩, .tick .fg] }, _, rfl, by decide, rfl, rfl⟩

theorem inv_todo (s : State) (tape : List Event) (h : s.Inv) : ({ s with todo := tape } : State).Inv :=
  ⟨fun f => by cases f <;> [exact h.inRange .inbound; exact h.inRange .outbound],
    fun f => by cases f <;> [exact h.storage .inbound; exact h.storage .outbound],
    fun a => by cases a <;> [exact h.roles .fg; exact h.roles .rxi; exact h.roles .txi],
    ⟨h.nesting.once, h.nesting.noForeground,
      fun a => by cases a <;> [exact h.nesting.exact .fg; exact h.nesting.exact .rxi; exact h.nesting.exact .txi]⟩,
    h.boot, fun f => by cases f <;> [exact h.ring .inbound; exact h.ring .outbound], h.fullAccept,
    ⟨h.outbound.idleEmpty, h.outbound.seenEmpty, h.outbound.single⟩⟩

/-- Both disjuncts: the decrement D3, and a whole activation. -/
theorem witness_OnlyTheTransmitPathMakesRoom :
    (∃ s t : State, s.Inv ∧ s.booted = true ∧ step s = .next t ∧ s.outb.free < t.outb.free ∧ s.todo = [.tick .txi]) ∧
    (∃ s t : State, s.Inv ∧ s.booted = true ∧ step s = .next t ∧ s.outb.free < t.outb.free ∧
      s.todo = [.issue .txi ⟨0x0C#8, .zero⟩]) :=
  ⟨⟨{ midRunD3 with todo := [.tick .txi] }, _, inv_todo _ _ midRunD3_inv, rfl, rfl, by decide, rfl⟩,
    ⟨{ between with todo := [.issue .txi ⟨0x0C#8, .zero⟩] }, _, inv_todo _ _ between_inv, rfl, rfl, by decide, rfl⟩⟩

/-- `IN` empty, and `IN` not empty. -/
theorem witness_ReadTakesTheOldestByte :
    (idleTx.TransportReady ∧ idleTx.inb.count = 0) ∧
    (between.TransportReady ∧ between.inb.count ≠ 0 ∧ between.inb.InRange) :=
  ⟨⟨⟨⟨rfl, rfl, rfl⟩, rfl⟩, rfl⟩, ⟨between_ready, by decide, by unfold Buffer.InRange; decide⟩⟩

/-! ### The interrupt paths -/

theorem witness_LineErrorDiscardsTheByte :
    (received between 0x55#8 true).RxReady ∧ (received between 0x55#8 true).per.rxErr = true :=
  ⟨⟨rfl, rfl, rfl, rfl⟩, rfl⟩

theorem witness_FullInboundDropsTheByte :
    (received between 0xEE#8 false).RxReady ∧ (received between 0xEE#8 false).per.rxErr = false ∧
    (received between 0xEE#8 false).inb.count = (received between 0xEE#8 false).inb.cap :=
  ⟨⟨rfl, rfl, rfl, rfl⟩, rfl, rfl⟩

/-- Room for exactly one byte. -/
theorem witness_ReceivedByteIsStored :
    ∃ s : State, s.RxReady ∧ s.per.rxErr = false ∧ s.inb.count < s.inb.cap ∧ s.inb.InRange ∧ RingOk s.inb none none :=
  ⟨received { midWrite with inb := ⟨1, [(0, 0x61#8)], 1, 0, 1, false⟩ } 0x68#8 false, ⟨rfl, rfl, rfl, rfl⟩, rfl, by decide,
    by unfold Buffer.InRange; decide, ⟨by decide, by decide, trivial, trivial⟩⟩

/-- The last byte of `OUT`. -/
theorem witness_TransmitSendsTheOldestByte :
    (sendable between).TxReady ∧ (sendable between).outb.count ≠ 0 ∧ (sendable between).outb.InRange :=
  ⟨⟨rfl, rfl, rfl, rfl, rfl⟩, by decide, by unfold Buffer.InRange; decide⟩

theorem witness_TransmitDisablesOnEmpty :
    ∃ s : State, s.TxReady ∧ s.outb.count = 0 :=
  ⟨sendable (transport (Buffer.powerOn 1) (Buffer.powerOn 1) true), ⟨rfl, rfl, rfl, rfl, rfl⟩, rfl⟩

theorem witness_WrittenBytesAreSentInOrder :
    between.TransportReady ∧ between.txi.inflight = none ∧ [0x6B#8].length ≤ between.outb.free ∧
    between.outb.InRange ∧ RingOk between.outb none none :=
  ⟨between_ready, rfl, by decide, by unfold Buffer.InRange; decide, ⟨by decide, by decide, trivial, trivial⟩⟩

theorem witness_HandlersCommute :
    ∃ s : State, s.booted = true ∧ s.rxi.inflight = none ∧ s.txi.inflight = none ∧ s.per.rxReady = true ∧
      s.per.txEmpty = true ∧ s.per.txIrqEn = true :=
  ⟨sendable (received between 0x68#8 false), rfl, rfl, rfl, rfl, rfl, rfl⟩

/-- Either handler stopped after two micro-steps, and the other one whole there. -/
theorem witness_NestedActivationEqualsBackToBack :
    (∃ s u v w, start .rxirq s = .next u ∧ ticks .rxi 2 u = .next v ∧
      exec .txirq { v with issuer := .txi } = .next w) ∧
    (∃ s u v w, start .txirq s = .next u ∧ ticks .txi 2 u = .next v ∧
      exec .rxirq { v with issuer := .rxi } = .next w) :=
  ⟨⟨{ received (sendable between) 0x68#8 false with issuer := .rxi }, _, _, _, rfl, rfl, rfl⟩,
    ⟨sendable (received between 0x68#8 false), _, _, _, rfl, rfl, rfl⟩⟩

theorem witness_ExecIsTheUninterruptedMicroRun :
    ∃ t, exec (.write true [0x6B#8]) between = .next t := ⟨_, rfl⟩

/-! ### The invariant and the micro-steps -/

theorem witness_StepKeepsTheInvariant :
    ∃ s t : State, s.Inv ∧ step s = .next t ∧ t ≠ s :=
  ⟨{ midRun with todo := [.tick .txi] }, _, inv_todo _ _ midRun_inv, rfl, by decide⟩

theorem witness_CountStaysWithinCapacity :
    ∃ s t : State, s.Inv ∧ Host.Core.run core 3 s = .next t ∧ t.outb.count = 0 :=
  ⟨{ midRunD3 with todo := [.tick .txi, .tick .txi, .tick .txi] }, _, inv_todo _ _ midRunD3_inv, rfl, rfl⟩

theorem witness_DisabledTransmitMeansEmptyOutbound :
    ∃ s t : State, s.Inv ∧ Host.Core.run core 1 s = .next t ∧ t.booted = true ∧ ¬ inWriteWindow t.fg.inflight ∧
      t.per.txIrqEn = false :=
  ⟨{ idleTx with todo := [.receive 0x68#8 false] }, _, inv_todo _ _ idleTx_inv, rfl, rfl, fun h => h, rfl⟩

/-- The queue stays; the producer's byte is appended; the oldest byte leaves. -/
theorem witness_MicroStepsRefineTheQueue :
    (∃ t, midRun.Inv ∧ tick .txi midRun = .next t ∧ midRun.initialised .outbound = true ∧
      t.queue .outbound = midRun.queue .outbound) ∧
    (∃ t, midWrite.Inv ∧ tick .fg midWrite = .next t ∧ midWrite.initialised .outbound = true ∧
      t.queue .outbound = midWrite.queue .outbound ++ [0x6B#8]) ∧
    (∃ t, midRunD3.Inv ∧ tick .txi midRunD3 = .next t ∧ midRunD3.initialised .outbound = true ∧
      midRunD3.queue .outbound = 0x6F#8 :: t.queue .outbound) :=
  ⟨⟨_, midRun_inv, rfl, rfl, by decide⟩, ⟨_, midWrite_inv, rfl, rfl, by decide⟩, ⟨_, midRunD3_inv, rfl, rfl, by decide⟩⟩

theorem witness_RegistersMoveOnlyAsListed :
    (∃ t, midRunD3.Inv ∧ tick .txi midRunD3 = .next t ∧ t.outb.count + 1 = midRunD3.outb.count) ∧
    (∃ t, midWrite.Inv ∧ tick .fg midWrite = .next t ∧ t.outb.count = midWrite.outb.count + 1) :=
  ⟨⟨_, midRunD3_inv, rfl, rfl⟩, ⟨_, midWrite_inv, rfl, rfl⟩⟩

/-- A producer about to store beside an unread byte, and a consumer about to read. -/
theorem witness_SidesNeverShareASlot :
    (∃ t o, midStore.Inv ∧ midStore.initialised .outbound = true ∧ tick .fg midStore = .next t ∧
      0 < (midStore.buf .outbound).count ∧ (midStore.agent .fg).inflight = some o ∧
      o.enqOn .outbound = some ({ accepted := 0, pos := .e1 0x6B#8 }, [0x6B#8])) ∧
    (∃ t o, midRun.Inv ∧ midRun.initialised .outbound = true ∧ tick .txi midRun = .next t ∧
      (midRun.agent .txi).inflight = some o ∧ o.deqOn .outbound = some { out := [], pos := .d1 }) :=
  ⟨⟨_, _, midStore_inv, rfl, rfl, by decide, rfl, rfl⟩, ⟨_, _, midRun_inv, rfl, rfl, rfl, rfl⟩⟩

/-- The `ENQ` of a `WRITE` about to return, and that of an `RXIRQ` about to return. -/
theorem witness_TransportEnqueuesAreWhole :
    (∃ s : State, s.Inv ∧ s.fg.inflight = some (.write true [] (.w2 { accepted := 0, pos := .q6 })) ∧
      (EnqRun.step true [] { accepted := 0, pos := .q6 } s.outb).2 = .inr 0) ∧
    (∃ s : State, s.Inv ∧ s.rxi.inflight = some (.rxirq (.rx6 0x61#8 { accepted := 1, pos := .q6 })) ∧
      (EnqRun.step true [0x61#8] { accepted := 1, pos := .q6 } s.inb).2 = .inr 1) := by
  refine ⟨⟨{ between with fg := { inflight := some (.write true [] (.w2 { accepted := 0, pos := .q6 })), result := none } },
    ⟨between_inv.inRange, between_inv.storage, ?_, ?_, ?_, ?_, ?_, ?_⟩, rfl, rfl⟩,
    ⟨{ between with
        rxi := { inflight := some (.rxirq (.rx6 0x61#8 { accepted := 1, pos := .q6 })), result := none }
        active := [.rxi] },
    ⟨between_inv.inRange, between_inv.storage, ?_, ?_, ?_, ?_, ?_, ?_⟩, rfl, rfl⟩⟩
  · intro a o h; cases a <;> cases h; rfl
  · exact ⟨by decide, by decide, fun a h => by
      cases a <;> simp_all [between, transport, State.reset, State.agent, AgentState.idle]⟩
  · exact ⟨by decide, trivial⟩
  · intro f _; cases f <;> exact ⟨by decide, by decide, by trivial, trivial⟩
  · exact ⟨fun av p r h => (by cases h; exact ⟨by decide, by simp⟩), fun b r h => (by cases h)⟩
  · exact ⟨fun _ _ h => (by cases h), fun h => (by cases h), fun r h => (by cases h)⟩
  · intro a o h; cases a <;> cases h; rfl
  · exact ⟨by decide, by decide, fun a h => by
      cases a <;> simp_all [between, transport, State.reset, State.agent, AgentState.idle]⟩
  · exact ⟨by decide, trivial⟩
  · intro f _; cases f <;> exact ⟨by decide, by decide, by trivial, trivial⟩
  · exact ⟨fun av p r h => (by cases h), fun b r h => (by cases h; exact ⟨by decide, by simp⟩)⟩
  · exact ⟨fun _ _ h => (by cases h), fun h => (by cases h), fun r h => (by cases h)⟩

/-- A state with the flag set that steps, and one that is refused. -/
theorem witness_StoredFlagIsNeverRead :
    (∃ s t : State, s.inb.full = true ∧ step s = .next t ∧ t ≠ s) ∧ (∃ (s : State) (r : Refusal), step s = .refused r) :=
  ⟨⟨{ between with todo := [.issue .fg ⟨0x0A#8, .zero⟩] }, _, rfl, rfl, by decide⟩,
    ⟨{ between with todo := [.tick .fg] }, _, rfl⟩⟩

theorem between_quiet : between.Quiet := ⟨rfl, rfl, rfl, rfl⟩

theorem witness_WholeOperationsKeepTheFullFlag :
    ∃ t, between.Inv ∧ between.Quiet ∧ between.inb.FlagOk ∧ between.outb.FlagOk ∧ exec .read1 between = .next t :=
  ⟨_, between_inv, between_quiet, by unfold Buffer.FlagOk; decide, by unfold Buffer.FlagOk; decide, rfl⟩

theorem witness_StorageStaysCanonical :
    ∃ s t : State, memWf s.inb.mem = true ∧ memWf s.outb.mem = true ∧ step s = .next t ∧ t.outb.mem ≠ s.outb.mem :=
  ⟨{ midStore with todo := [.tick .fg] }, _, by decide, by decide, rfl, by decide⟩

theorem witness_CapacityIsFixed :
    ∃ t, step { State.reset with todo := [.issue .fg ⟨0x08#8, .zero⟩] } = .next t := ⟨_, rfl⟩

/-! ### Who writes what, and when -/

/-- A move of each agent, and one of the peripheral. -/
theorem witness_WritersAreTheTablesWriters :
    (∃ s t : State, s.Inv ∧ s.booted = true ∧ step s = .next t ∧ s.mover = some .fg ∧ t ≠ s) ∧
    (∃ s t : State, s.Inv ∧ s.booted = true ∧ step s = .next t ∧ s.mover = some .txi ∧ t ≠ s) ∧
    (∃ s t : State, s.Inv ∧ s.booted = true ∧ step s = .next t ∧ s.mover = some .rxi ∧ t ≠ s) ∧
    (∃ s t : State, s.Inv ∧ s.booted = true ∧ step s = .next t ∧ s.mover = none ∧ t ≠ s) :=
  ⟨⟨{ midStore with todo := [.tick .fg] }, _, inv_todo _ _ midStore_inv, rfl, rfl, rfl, by decide⟩,
    ⟨{ midRun with todo := [.tick .txi] }, _, inv_todo _ _ midRun_inv, rfl, rfl, rfl, by decide⟩,
    ⟨{ pending with todo := [.issue .rxi ⟨0x0B#8, .zero⟩] }, _, inv_todo _ _ pending_inv, rfl, rfl, rfl, by decide⟩,
    ⟨{ idleTx with todo := [.receive 0x68#8 false] }, _, inv_todo _ _ idleTx_inv, rfl, rfl, rfl, by decide⟩⟩

/-- A producer enqueues, and a consumer dequeues. -/
theorem witness_FreeSpaceIsALowerBound :
    (∃ s t : State, s.Inv ∧ s.booted = true ∧ step s = .next t ∧ t.outb.free < s.outb.free) ∧
    (∃ s t : State, s.Inv ∧ s.booted = true ∧ step s = .next t ∧ t.outb.count < s.outb.count) ∧
    (∃ s t : State, s.Inv ∧ s.booted = true ∧ step s = .next t ∧ t.inb.count < s.inb.count) ∧
    (∃ s t : State, s.Inv ∧ s.booted = true ∧ step s = .next t ∧ t.inb.free < s.inb.free) :=
  ⟨⟨{ midWrite with todo := [.tick .fg] }, _, inv_todo _ _ midWrite_inv, rfl, rfl, by decide⟩,
    ⟨{ midRunD3 with todo := [.tick .txi] }, _, inv_todo _ _ midRunD3_inv, rfl, rfl, by decide⟩,
    ⟨{ between with todo := [.issue .fg ⟨0x0A#8, .zero⟩] }, _, inv_todo _ _ between_inv, rfl, rfl, by decide⟩,
    ⟨{ pending with todo := [.issue .rxi ⟨0x0B#8, .zero⟩] }, _, inv_todo _ _ pending_inv, rfl, rfl, by decide⟩⟩

theorem witness_ForegroundStandsWhileAnActivationRuns :
    (received midWrite 0x68#8 false).RxReady ∧ (sendable midWrite).TxReady ∧
    ∃ s t : State, s.NestingOk ∧ s.active ≠ [] ∧ step s = .next t ∧ t ≠ s :=
  ⟨⟨rfl, rfl, rfl, rfl⟩, ⟨rfl, rfl, rfl, rfl, rfl⟩,
    { midRun with todo := [.tick .txi] }, _, (inv_todo _ _ midRun_inv).nesting, by decide, rfl, by decide⟩

theorem witness_ActivationEntryAndReturnSaveNothing :
    (received midRun 0x68#8 false).RxReady ∧ (sendable midWrite).TxReady ∧
    (∃ s : State, s.active = [.rxi, .txi] ∧ s.rxi.inflight = some (.rxirq .rx7)) ∧
    (∃ s : State, s.active = [.rxi] ∧ s.rxi.inflight = some (.rxirq (.rx5 0xEE#8)) ∧ s.inb.count = s.inb.cap) ∧
    (∃ s : State, s.active = [.txi] ∧ s.txi.inflight = some (.txirq .tx6)) :=
  ⟨⟨rfl, rfl, rfl, rfl⟩, ⟨rfl, rfl, rfl, rfl, rfl⟩,
    ⟨{ midRun with active := [.rxi, .txi], rxi := { inflight := some (.rxirq .rx7), result := none } }, rfl, rfl⟩,
    ⟨{ between with active := [.rxi], rxi := { inflight := some (.rxirq (.rx5 0xEE#8)), result := none } }, rfl, rfl, rfl⟩,
    ⟨{ midRun with txi := { inflight := some (.txirq .tx6), result := none } }, rfl, rfl⟩⟩

/-- Entry on a request, the return, and a handler's observer inside its activation. -/
theorem witness_InterruptContextServesRequestsOnly :
    (∃ s t : State, step s = .next t ∧ t.active = .rxi :: s.active) ∧
    (∃ s t : State, step s = .next t ∧ s.active = .txi :: t.active) ∧
    (∃ t : State, ({ midRun with issuer := .txi } : State).issuer ≠ .fg ∧
      exec (.len .inbound) { midRun with issuer := .txi } = .next t) :=
  ⟨⟨{ received between 0x68#8 false with todo := [.start .rxi ⟨0x0B#8, .zero⟩] }, _, rfl, rfl⟩,
    ⟨{ midRun with txi := { inflight := some (.txirq .tx6), result := none }, todo := [.tick .txi] }, _, rfl, rfl⟩,
    ⟨_, by decide, rfl⟩⟩

theorem witness_ActivationNeedsAndClearsItsRequest :
    (∃ t, exec .rxirq (received between 0x68#8 false) = .next t) ∧ (∃ t, exec .txirq (sendable between) = .next t) ∧
    (∃ t, start .rxirq (received between 0x68#8 false) = .next t) ∧ (∃ t, start .txirq (sendable between) = .next t) :=
  ⟨⟨_, rfl⟩, ⟨_, rfl⟩, ⟨_, rfl⟩, ⟨_, rfl⟩⟩

/-- Enabled by a whole `WRITE`; disabled by a whole `TXIRQ` that finds nothing. -/
theorem witness_OnlyWriteAndTxirqSwitchTransmit :
    (∃ s t : State, s.Inv ∧ s.booted = true ∧ step s = .next t ∧ s.per.txIrqEn = false ∧ t.per.txIrqEn = true) ∧
    (∃ s t : State, s.Inv ∧ s.booted = true ∧ step s = .next t ∧ s.per.txIrqEn = true ∧ t.per.txIrqEn = false) :=
  ⟨⟨{ idleTx with todo := [.issue .fg ⟨0x09#8, ⟨true, [0x6F#8], 0⟩⟩] }, _, inv_todo _ _ idleTx_inv, rfl, rfl, rfl, rfl⟩,
    ⟨{ drained with todo := [.issue .txi ⟨0x0C#8, .zero⟩] }, _, inv_todo _ _ drained_inv, rfl, rfl, rfl, rfl⟩⟩

/-- The four cases of the two signals. -/
theorem witness_PeripheralMovesOnlyItsSignals :
    between.per.rxReady = false ∧ (received between 0#8 false).per.rxReady = true ∧ idleTx.per.txEmpty = false ∧
    (sendable between).per.txEmpty = true := ⟨rfl, rfl, rfl, rfl⟩

theorem witness_OnlyAllowedAgentsIssue :
    (∃ t, exec .read1 between = .next t) ∧ (∃ t, start .txirq (sendable between) = .next t) ∧
    (∃ s t : State, exec (.full .outbound) s = .next t ∧ (s.agent s.issuer).inflight ≠ none) :=
  ⟨⟨_, rfl⟩, ⟨_, rfl⟩, ⟨{ midRun with issuer := .txi }, _, rfl, by decide⟩⟩

/-- One instance initialised and the other not; power-on, with nothing initialised; an assembled transport. -/
theorem witness_NothingRunsBeforeInitialisation :
    (∃ s : State, bufferOf (.enq .outbound true [1#8]) = some .outbound ∧ s.initialised .outbound = false ∧
      s.initialised .inbound = true ∧ Instr.enq .outbound true [1#8] ≠ .init .outbound) ∧
    (State.reset.booted = false ∧ State.reset.initIn = false ∧ State.reset.initOut = false ∧
      Instr.len .inbound ≠ .tinit ∧ ∀ f, Instr.len .inbound ≠ .init f) ∧ between.booted = true :=
  ⟨⟨{ State.reset with initIn := true }, rfl, rfl, rfl, by simp⟩,
    ⟨rfl, rfl, rfl, by decide, fun f => by simp⟩, rfl⟩

theorem witness_BufferCodesStayInsideTheTransport : between.booted = true := rfl

theorem witness_EndToEndAtCapacityEight :
    ∃ s : State, s.TransportReady ∧ s.txi.inflight = none ∧ s.outb = Buffer.powerOn 3 ∧ s.per.txIrqEn = false :=
  ⟨transport (Buffer.powerOn 3) (Buffer.powerOn 3) false, ⟨⟨rfl, rfl, rfl⟩, rfl⟩, rfl, rfl, rfl⟩

end Sys2Proof.Tests
end

section
/-! PROOF. The capacity exponent `k` of `IN` and of `OUT` is fixed at construction (00_scope.md R5): the batches, the
micro-steps and the whole operations keep it, and so does every step. -/

namespace Sys2Proof.Machine

/-! ## One buffer, whole operations -/

@[simp] theorem Buffer.k_init (b : Buffer) : b.init.k = b.k := rfl

/-- Of every buffer: unlike `Buffer.enqLoop_registers`, this needs no bound on the count. -/
@[simp] theorem Buffer.k_enqLoop (b : Buffer) (p : List Byte) : (b.enqLoop p).1.k = b.k := by
  induction p generalizing b with
  | nil => rfl
  | cons x rest ih =>
    rcases b.enq1_cases x with ⟨-, he⟩ | ⟨-, b', he, hk, -⟩
    · simp [Buffer.enqLoop, he]
    · simpa [Buffer.enqLoop, he] using (ih b').trans hk

@[simp] theorem Buffer.k_enqueue (b : Buffer) (av : Bool) (p : List Byte) :
    (b.enqueue av p).1.k = b.k := by
  cases av
  · rfl
  · exact b.k_enqLoop p

@[simp] theorem Buffer.k_dequeue (f : Inst) (b : Buffer) (av : Bool) (n : Nat) :
    (b.dequeue f av n).1.k = b.k := by
  cases av
  · rfl
  · exact (b.deqLoop_registers f n).1

/-! ## The state -/

/-- To replace a buffer by one of the same exponent changes no exponent. -/
theorem State.k_buf_setBuf (s : State) (f g : Inst) (b : Buffer) (h : b.k = (s.buf f).k) :
    ((s.setBuf f b).buf g).k = (s.buf g).k := by
  by_cases hg : g = f
  · rw [hg, State.buf_setBuf_same, h]
  · rw [State.buf_setBuf_of_ne _ _ _ _ hg]

@[simp] theorem State.k_buf_writeOut (s : State) (p : List Byte) (g : Inst) :
    ((s.writeOut p).buf g).k = (s.buf g).k := by
  have hq := s.k_buf_setBuf .outbound g _ (s.outb.k_enqueue true p)
  simp only [State.writeOut]
  split
  · exact hq
  · simpa using hq

@[simp] theorem State.k_buf_storeRx (s : State) (b : Byte) (g : Inst) :
    ((s.storeRx b).buf g).k = (s.buf g).k := by
  unfold State.storeRx
  split
  · rfl
  · exact s.k_buf_setBuf .inbound g _ (s.inb.k_enqueue true [b])

@[simp] theorem State.buf_unready (s : State) (i : Instr) (g : Inst) :
    (s.unready i).buf g = s.buf g := by
  cases i <;> simp [State.unready]

/-- To stand before an operation's first micro-step touches no buffer (10_state.md R29, 60_exceptions.md
R158). -/
@[simp] theorem State.buf_launch (s : State) (i : Instr) (o : Op) (g : Inst) :
    (s.launch i o).buf g = s.buf g := by
  simp [State.launch]

/-! ## Micro-steps, whole operations, steps -/

theorem microOp_keeps_k (o : Op) (s : State) (g : Inst) :
    ((microOp o s).1.buf g).k = (s.buf g).k := by
  cases o with
  | init f p =>
    have hq := s.k_buf_setBuf f g _ (p.k_step (s.buf f))
    simp only [microOp, microInit]
    cases (p.step (s.buf f)).2
    · simpa using hq
    · exact hq
  | enq f av payload r => exact s.k_buf_setBuf f g _ (r.k_step av payload (s.buf f))
  | deq f av m r => exact s.k_buf_setBuf f g _ (r.k_step f av m (s.buf f))
  | tinit p =>
    cases p with
    | t1 q => exact s.k_buf_setBuf .inbound g _ (q.k_step s.inb)
    | t2 q => exact s.k_buf_setBuf .outbound g _ (q.k_step s.outb)
    | t3 => simp [microOp, microTinit]
    | t4 => simp [microOp, microTinit]
  | write av payload p =>
    cases p with
    | w2 r => exact s.k_buf_setBuf .outbound g _ (r.k_step true payload s.outb)
    | w4 => simp [microOp, microWrite]
    | _ => rfl
  | read1 p =>
    cases p with
    | x1 r => exact s.k_buf_setBuf .inbound g _ (r.k_step .inbound true 1 s.inb)
    | x2 bytes => cases bytes <;> rfl
    | x3 b => rfl
  | rxirq p =>
    cases p with
    | rx1 => simp [microOp, microRxirq]
    | rx3 => simp [microOp, microRxirq]
    | rx6 b r => exact s.k_buf_setBuf .inbound g _ (r.k_step true [b] s.inb)
    | _ => rfl
  | txirq p =>
    cases p with
    | tx1 r => exact s.k_buf_setBuf .outbound g _ (r.k_step .outbound true 1 s.outb)
    | tx2 bytes => cases bytes <;> rfl
    | tx3 b => simp [microOp, microTxirq]
    | tx5 => simp [microOp, microTxirq]
    | _ => rfl

theorem State.advance_keeps_k (s : State) (a : Agent) (o : Op) (g : Inst) :
    ((s.advance a o).buf g).k = (s.buf g).k := by
  rcases s.advance_cases a o with ⟨o', -, he⟩ | ⟨r, -, he⟩ <;> simp [he, microOp_keeps_k]

theorem exec_keeps_k (i : Instr) (s t : State) (g : Inst) (h : exec i s = .next t) :
    (t.buf g).k = (s.buf g).k := by
  cases i <;> obtain ⟨-, rfl⟩ := (State.whenLegal_next_iff _ _ _ _).mp h
  case init f => simpa using s.k_buf_setBuf f g _ (s.buf f).k_init
  case enq f av payload => simpa using s.k_buf_setBuf f g _ ((s.buf f).k_enqueue av payload)
  case deq f av m => simpa using s.k_buf_setBuf f g _ ((s.buf f).k_dequeue f av m)
  case empty f => simp
  case full f => simp
  case len f => simp
  case tinit => cases g <;> simp
  case write av payload =>
    split
    · split <;> simp
    · simp
  case read1 => simpa using s.k_buf_setBuf .inbound g _ (s.inb.k_dequeue .inbound true 1)
  case rxirq => split <;> simp
  case txirq =>
    have hq := s.k_buf_setBuf .outbound g _ (s.outb.k_dequeue .outbound true 1)
    split <;> simpa using hq

theorem start_keeps_k (i : Instr) (s t : State) (g : Inst) (h : start i s = .next t) :
    (t.buf g).k = (s.buf g).k := by
  rcases start_next_cases i s t h with ⟨o, -, -, rfl⟩ | ⟨-, he⟩
  · rw [State.buf_launch]
  · exact exec_keeps_k i s t g he

/-- A move of an agent keeps the exponents by the lemmas above; the moves of `PER` touch its signals alone. -/
theorem step_keeps_k (s t : State) (g : Inst) (h : step s = .next t) : (t.buf g).k = (s.buf g).k := by
  rcases step_next_cases s t h with ⟨-, rfl⟩ | ⟨a, c, rest, i, -, -, he⟩ | ⟨a, c, rest, i, -, -, he⟩ |
    ⟨a, rest, -, he⟩ | ⟨b, e, rest, -, he⟩ | ⟨rest, -, he⟩
  · rfl
  · simpa using exec_keeps_k i _ t g he
  · simpa using start_keeps_k i _ t g he
  · obtain ⟨o, -, -, rfl⟩ := (tick_next_iff _ _ _).mp he
    exact (State.advance_keeps_k _ a o g).trans (by cases g <;> rfl)
  · obtain ⟨-, rfl⟩ := (receive_next_iff _ _ _ _).mp he
    cases g <;> rfl
  · obtain ⟨-, rfl⟩ := (transmit_next_iff _ _).mp he
    cases g <;> rfl

/-- Settles O46: the capacity is `2 ^ k`, and no step changes `k`. -/
theorem capacityIsFixed : Obligations.CapacityIsFixed := by
  intro s t f h
  have hcap : (t.buf f).cap = 2 ^ (s.buf f).k := congrArg (2 ^ ·) (step_keeps_k s t f h)
  exact ⟨hcap, hcap⟩

end Sys2Proof.Machine
end

section
/-! PROOF. One buffer at any micro-step (10_state.md R20, R21; 20_memory.md R44, R48): where the unread bytes
stand, and what each micro-step of its producer and of its consumer keeps. -/

namespace Sys2Proof.Machine

/-! ## The slots of the unread bytes -/

theorem Buffer.oldest_lt (b : Buffer) (c : Option DeqRun) : b.oldest c < b.cap :=
  Nat.mod_lt _ b.cap_pos

theorem Buffer.oldest_of_consLag (b : Buffer) {c c' : Option DeqRun} (h : consLag c' = consLag c) :
    b.oldest c' = b.oldest c := by
  simp only [Buffer.oldest, h]

theorem Buffer.oldest_of_no_lag (b : Buffer) {c : Option DeqRun} (hr : b.ridx < b.cap) (h : consLag c = 0) :
    b.oldest c = b.ridx := by
  simp [Buffer.oldest, h, Nat.mod_eq_of_lt hr]

theorem consLag_le_one (c : Option DeqRun) : consLag c ≤ 1 := by
  rcases c with _ | ⟨out, pos⟩
  · exact Nat.zero_le 1
  · cases pos <;> simp [consLag, deqLag]

/-- Between D2 and D3 the read index is one slot past the oldest byte (R20). -/
theorem Buffer.oldest_add_consLag (b : Buffer) (c : Option DeqRun) :
    b.oldest c + consLag c ≡ b.ridx [MOD b.cap] := by
  have hlag := consLag_le_one c
  have hcap := b.cap_pos
  calc b.oldest c + consLag c
      ≡ (b.ridx + b.cap - consLag c) + consLag c [MOD b.cap] := (Nat.mod_modEq _ _).add_right _
    _ = b.ridx + b.cap := by omega
    _ ≡ b.ridx [MOD b.cap] := Nat.add_modEq_right

/-- The slot behind the last unread byte is the one the producer stores to, up to the producer's lag. -/
theorem RingOk.tail {b : Buffer} {p : Option (EnqRun × List Byte)} {c : Option DeqRun} (h : RingOk b p c) :
    b.oldest c + b.count + prodLag p ≡ b.widx [MOD b.cap] := by
  refine Nat.ModEq.add_right_cancel' (consLag c) ?_
  calc b.oldest c + b.count + prodLag p + consLag c
      = (b.oldest c + consLag c) + (b.count + prodLag p) := by omega
    _ ≡ b.ridx + (b.count + prodLag p) [MOD b.cap] := (b.oldest_add_consLag c).add_right _
    _ = b.ridx + b.count + prodLag p := by omega
    _ ≡ b.widx + consLag c [MOD b.cap] := h.linked

/-- Two unread bytes are never in one slot. -/
theorem Buffer.slot_inj (b : Buffer) {o i j : Nat} (hi : i < b.cap) (hj : j < b.cap)
    (h : (o + i) % b.cap = (o + j) % b.cap) : i = j :=
  Nat.ModEq.eq_of_lt_of_lt (Nat.ModEq.add_left_cancel' o h) hi hj

/-- With room, the slot a producer stores to holds no unread byte (R44). -/
theorem RingOk.unread_ne_widx {b : Buffer} {p : Option (EnqRun × List Byte)} {c : Option DeqRun}
    (h : RingOk b p c) (hw : b.widx < b.cap) (hp : prodLag p = 0) (hroom : b.count < b.cap) {j : Nat}
    (hj : j < b.count) : (b.oldest c + j) % b.cap ≠ b.widx := by
  intro he
  have htail := h.tail
  rw [hp, Nat.add_zero, Nat.ModEq, Nat.mod_eq_of_lt hw, ← he] at htail
  exact absurd (b.slot_inj hroom (hj.trans hroom) htail) (by omega)

/-- The slot before an index that has just advanced is the one it advanced from (10_state.md R21). -/
theorem Buffer.slot_before_advance (b : Buffer) {x : Nat} (hx : x < b.cap) :
    (b.advance x + b.cap - 1) % b.cap = x := by
  rw [b.advance_eq]
  rcases Nat.lt_or_eq_of_le hx with h | h
  · have hsum : x.succ + b.cap - 1 = x + b.cap := by omega
    rw [Nat.mod_eq_of_lt h, hsum, Nat.add_mod_right, Nat.mod_eq_of_lt hx]
  · rw [← h, Nat.mod_self]; simp

/-! ## Changes of the records that touch no buffer -/

/-- A producer that goes on with the same lag keeps the ring. -/
theorem RingOk.with_producer {b : Buffer} {p p' : Option (EnqRun × List Byte)} {c : Option DeqRun}
    (h : RingOk b p c) (hlag : prodLag p' = prodLag p) (hp : ProducerOk b p') : RingOk b p' c :=
  ⟨by rw [hlag]; exact h.linked, h.occupied, hp, h.consumer⟩

/-- A consumer that goes on with the same lag keeps the ring. -/
theorem RingOk.with_consumer {b : Buffer} {p : Option (EnqRun × List Byte)} {c c' : Option DeqRun}
    (h : RingOk b p c) (hlag : consLag c' = consLag c) (hc : ConsumerOk b c') : RingOk b p c' :=
  ⟨by rw [hlag]; exact h.linked, by rw [b.oldest_of_consLag hlag]; exact h.occupied, h.producer, hc⟩

/-- The empty state is a ring with nobody part-way (10_state.md R31). -/
theorem RingOk.of_isReset {b : Buffer} (h : b.IsReset) : RingOk b none none := by
  obtain ⟨hw, hr, hn, -⟩ := h
  exact ⟨by simp [hw, hr, hn, prodLag, consLag], by simp [hn], trivial, trivial⟩

/-- What a producer relies on survives its consumer's micro-steps: these change neither storage nor the
write index, and the count only downwards (20_memory.md R48). -/
theorem ProducerOk.of_count_le {b b' : Buffer} {p : Option (EnqRun × List Byte)} (h : ProducerOk b p)
    (hk : b'.k = b.k) (hm : b'.mem = b.mem) (hw : b'.widx = b.widx) (hn : b'.count ≤ b.count) :
    ProducerOk b' p := by
  have hcap : b'.cap = b.cap := by simp [Buffer.cap, hk]
  rcases p with _ | ⟨⟨n, pos⟩, payload⟩
  · trivial
  · cases pos <;> simp only [ProducerOk, hcap, hm, hw] at h ⊢
    case e1 x => exact h.imp_right hn.trans_lt
    case e2 => exact h.imp_left hn.trans_lt
    case e3 => exact h.imp_left hn.trans_lt
    all_goals exact h

/-- What a consumer relies on survives its producer's micro-steps, which leave the read index and the oldest
byte alone and change the count only upwards (R48). -/
theorem ConsumerOk.of_le_count {b b' : Buffer} {c : Option DeqRun} (h : ConsumerOk b c)
    (ho : b'.oldest c = b.oldest c) (hn : b.count ≤ b'.count)
    (hm : 0 < b.count → memRead b'.mem (b.oldest c) = memRead b.mem (b.oldest c)) : ConsumerOk b' c := by
  rcases c with _ | ⟨out, pos⟩
  · trivial
  · cases pos <;> simp only [ConsumerOk, ho] at h ⊢
    case d1 => exact h.trans_le hn
    case d2 x => exact ⟨h.1.trans_le hn, (hm h.1).trans h.2⟩
    case d3 x => exact ⟨h.1.trans_le hn, (hm h.1).trans h.2⟩

/-! ## The producer's micro-steps -/

section
variable {b : Buffer} {n : Nat} {payload : List Byte} {c : Option DeqRun}

/-- E1 stores to a slot that holds no unread byte, so every unread byte stays (20_memory.md R44). -/
theorem RingOk.e1 {x : Byte} (h : RingOk b (some (⟨n, .e1 x⟩, payload)) c) (hw : b.widx < b.cap) :
    RingOk (b.e1 x) (some (⟨n, .e2⟩, payload)) c := by
  obtain ⟨hx, hroom⟩ : payload[n]? = some x ∧ b.count < b.cap := h.producer
  have hkeep : ∀ j, j < b.count → memRead (b.e1 x).mem ((b.oldest c + j) % b.cap) =
      memRead b.mem ((b.oldest c + j) % b.cap) := fun j hj =>
    memRead_memWrite_of_ne _ _ (h.unread_ne_widx hw rfl hroom hj)
  refine ⟨h.linked, fun j hj => (congrArg _ (hkeep j hj)).trans (h.occupied j hj), ⟨hroom, ?_, ?_⟩, ?_⟩
  · exact (List.getElem?_eq_some_iff.mp hx).1
  · rw [hx]; exact memRead_memWrite_same _ _ _
  · refine h.consumer.of_le_count rfl le_rfl fun hpos => ?_
    simpa [Nat.mod_eq_of_lt (b.oldest_lt c)] using hkeep 0 hpos

/-- E2 advances the write index; the lag says that the count does not follow yet (10_state.md R20). -/
theorem RingOk.e2 (h : RingOk b (some (⟨n, .e2⟩, payload)) c) (hw : b.widx < b.cap) :
    RingOk b.e2 (some (⟨n, .e3⟩, payload)) c := by
  obtain ⟨hroom, hn, hread⟩ := h.producer
  refine ⟨?_, h.occupied, ⟨hroom, hn, ?_⟩, h.consumer.of_le_count rfl le_rfl fun _ => rfl⟩
  · have hlink : b.ridx + b.count ≡ b.widx + consLag c [MOD b.cap] := h.linked
    calc b.ridx + b.count + 1 ≡ b.widx + consLag c + 1 [MOD b.cap] := hlink.add_right 1
      _ = (b.widx + 1) + consLag c := by omega
      _ ≡ b.advance b.widx + consLag c [MOD b.cap] := by
        rw [b.advance_eq]; exact ((Nat.mod_modEq _ _).symm).add_right _
  · rw [← hread]; exact congrArg _ (b.slot_before_advance hw)

/-- The slot that the increment E3 adds to the unread bytes is the one before the write index. -/
theorem RingOk.published_slot {r : EnqRun} (h : RingOk b (some (r, payload)) c) (hr : r.pos = .e3) :
    (b.oldest c + b.count) % b.cap = (b.widx + b.cap - 1) % b.cap := by
  have htail : b.oldest c + b.count + 1 ≡ b.widx [MOD b.cap] := by
    simpa [prodLag, enqLag, hr] using h.tail
  have hcap := b.cap_pos
  refine Nat.ModEq.add_right_cancel' 1 ?_
  calc b.oldest c + b.count + 1 ≡ b.widx [MOD b.cap] := htail
    _ ≡ b.widx + b.cap [MOD b.cap] := Nat.add_modEq_right.symm
    _ = b.widx + b.cap - 1 + 1 := by omega

/-- E3 adds the byte stored at E1 behind the unread ones (20_memory.md R44, R46). -/
theorem RingOk.e3 (h : RingOk b (some (⟨n, .e3⟩, payload)) c) :
    RingOk b.e3 (some (⟨n, .e4⟩, payload)) c := by
  obtain ⟨hroom, hn, hread⟩ := h.producer
  refine ⟨h.linked, fun j hj => ?_, hn, h.consumer.of_le_count rfl (Nat.le_succ _) fun _ => rfl⟩
  rcases Nat.lt_succ_iff_lt_or_eq.mp hj with hj | rfl
  · exact h.occupied j hj
  · show (memRead b.mem ((b.oldest c + b.count) % b.cap)).isSome = true
    rw [h.published_slot rfl, hread, List.getElem?_eq_getElem hn]
    rfl

/-- The stored flag is no part of the ring (10_state.md R15). -/
theorem RingOk.with_full {p : Option (EnqRun × List Byte)} (h : RingOk b p c) (v : Bool) :
    RingOk { b with full := v } p c :=
  ⟨h.linked, h.occupied, h.producer.of_count_le rfl rfl rfl le_rfl,
    h.consumer.of_le_count rfl le_rfl fun _ => rfl⟩

/-- Every micro-step of a producer, from E0 to the return, keeps the ring (R84, R86). -/
theorem RingOk.enqStep (av : Bool) {r : EnqRun} (h : RingOk b (some (r, payload)) c) (hw : b.widx < b.cap)
    (hn : b.count ≤ b.cap) :
    RingOk (r.step av payload b).1 ((r.step av payload b).2.getLeft?.map (·, payload)) c := by
  obtain ⟨n, pos⟩ := r
  cases pos with
  | q0 =>
    cases av
    · exact h.with_producer rfl trivial
    · exact h.with_producer rfl h.producer
  | q1 => exact h.with_producer rfl (Nat.zero_le _)
  | q2 =>
    have hle : n ≤ payload.length := h.producer
    cases hx : payload[n]? <;> simp only [EnqRun.step, hx, Sum.getLeft?_inl, Option.map_some]
    case none => exact h.with_producer rfl (le_antisymm hle (List.getElem?_eq_none_iff.mp hx))
    case some x => exact h.with_producer rfl hx
  | e0 x =>
    have hx : payload[n]? = some x := h.producer
    by_cases hf : b.isFull = true <;> simp only [EnqRun.step, hf, Sum.getLeft?_inl, Option.map_some, if_true]
    case pos => exact h.with_producer rfl (fun he => by cases he)
    case neg =>
      have hne : b.count ≠ b.cap := fun he => hf (b.isFull_iff.mpr he)
      exact h.with_producer rfl ⟨hx, lt_of_le_of_ne hn hne⟩
  | e1 x => exact h.e1 hw
  | e2 => exact h.e2 hw
  | e3 => exact h.e3
  | e4 => exact (h.with_full b.isFull).with_producer rfl fun _ => h.producer
  | q4 stopped =>
    cases stopped
    · exact h.with_producer rfl (h.producer rfl)
    · exact h.with_producer rfl trivial
  | q5 => exact h.with_producer rfl h.producer
  | q6 => exact h.with_producer rfl trivial

end

/-! ## The consumer's micro-steps -/

section
variable {b : Buffer} {p : Option (EnqRun × List Byte)} {out : List Byte}

/-- D2 advances the read index; the oldest byte is the same until D3 (20_memory.md R44). -/
theorem Buffer.oldest_d2 (b : Buffer) (x : Byte) (hr : b.ridx < b.cap) :
    b.d2.oldest (some ⟨out, .d3 x⟩) = b.oldest (some ⟨out, .d2 x⟩) :=
  (b.slot_before_advance hr).trans (b.oldest_of_no_lag hr rfl).symm

theorem RingOk.d2 {x : Byte} (h : RingOk b p (some ⟨out, .d2 x⟩)) (hr : b.ridx < b.cap) :
    RingOk b.d2 p (some ⟨out, .d3 x⟩) := by
  have ho := b.oldest_d2 (out := out) x hr
  refine ⟨?_, by rw [ho]; exact h.occupied, h.producer.of_count_le rfl rfl rfl le_rfl, ?_⟩
  · have hlink : b.ridx + b.count + prodLag p ≡ b.widx [MOD b.cap] := h.linked
    calc b.advance b.ridx + b.count + prodLag p
        = b.advance b.ridx + (b.count + prodLag p) := by omega
      _ ≡ b.ridx + 1 + (b.count + prodLag p) [MOD b.cap] := by
        rw [b.advance_eq]; exact (Nat.mod_modEq _ _).add_right _
      _ = b.ridx + b.count + prodLag p + 1 := by omega
      _ ≡ b.widx + 1 [MOD b.cap] := hlink.add_right 1
  · show 0 < b.count ∧ memRead b.mem (b.d2.oldest _) = some x
    rw [ho]; exact h.consumer

/-- With D3 the next byte is the oldest. -/
theorem Buffer.oldest_d3_add (b : Buffer) {c c' : Option DeqRun} (hc : consLag c = 1) (hc' : consLag c' = 0)
    (hr : b.ridx < b.cap) (j : Nat) :
    (b.d3.oldest c' + j) % b.cap = (b.oldest c + (j + 1)) % b.cap := by
  have hridx : b.d3.oldest c' = b.ridx := b.d3.oldest_of_no_lag hr hc'
  have hlag := b.oldest_add_consLag c
  rw [hridx, ← Nat.add_assoc, Nat.add_right_comm]
  rw [hc] at hlag
  exact (hlag.add_right j).symm

/-- D3 takes the oldest byte away (R44, R46). -/
theorem RingOk.d3 {x : Byte} (h : RingOk b p (some ⟨out, .d3 x⟩)) (hr : b.ridx < b.cap) :
    RingOk b.d3 p (some ⟨out, .d4 x⟩) := by
  obtain ⟨hpos, -⟩ : 0 < b.count ∧ _ := h.consumer
  refine ⟨?_, fun j hj => ?_, h.producer.of_count_le rfl rfl rfl (Nat.pred_le _), trivial⟩
  · have hlink : b.ridx + b.count + prodLag p ≡ b.widx + 1 [MOD b.cap] := h.linked
    refine Nat.ModEq.add_right_cancel' 1 ?_
    calc b.ridx + (b.count - 1) + prodLag p + 1 = b.ridx + b.count + prodLag p := by omega
      _ ≡ b.widx + 1 [MOD b.cap] := hlink
  · have hj' : j < b.count - 1 := hj
    exact (congrArg (fun i => (memRead b.mem i).isSome) (b.oldest_d3_add rfl rfl hr j)).trans
      (h.occupied (j + 1) (by omega))

/-- With an unread byte, D1 reads the oldest, from a slot that has been written (R33, R44). -/
theorem RingOk.read_oldest (f : Inst) {c : Option DeqRun} (h : RingOk b p c) (hr : b.ridx < b.cap)
    (hc : consLag c = 0) (hpos : 0 < b.count) :
    memRead b.mem (b.oldest c) = some (b.d1 f) := by
  have hocc := h.occupied 0 hpos
  rw [Nat.add_zero, Nat.mod_eq_of_lt (b.oldest_lt c)] at hocc
  rw [b.oldest_of_no_lag hr hc] at hocc ⊢
  obtain ⟨v, hv⟩ := Option.isSome_iff_exists.mp hocc
  simp [Buffer.d1, Buffer.readSlot, hv]

/-- Every micro-step of a consumer, from D0 to the return, keeps the ring (R90, R92). -/
theorem RingOk.deqStep (f : Inst) (av : Bool) (m : Nat) {r : DeqRun} (h : RingOk b p (some r))
    (hr : b.ridx < b.cap) :
    RingOk (r.step f av m b).1 p (r.step f av m b).2.getLeft? := by
  obtain ⟨out, pos⟩ := r
  cases pos with
  | p0 => cases av <;> exact h.with_consumer rfl trivial
  | p1 => exact h.with_consumer rfl trivial
  | p2 =>
    by_cases hm : out.length < m <;> simp only [DeqRun.step, hm, if_true, if_false] <;>
      exact h.with_consumer rfl trivial
  | d0 =>
    by_cases he : b.isEmpty = true <;> simp only [DeqRun.step, he, if_true]
    · exact h.with_consumer rfl trivial
    · have hne : b.count ≠ 0 := fun hn => he (b.isEmpty_iff.mpr hn)
      exact h.with_consumer rfl (Nat.pos_of_ne_zero hne)
  | d1 =>
    have hpos : 0 < b.count := h.consumer
    exact h.with_consumer rfl ⟨hpos, h.read_oldest f hr rfl hpos⟩
  | d2 x => exact h.d2 hr
  | d3 x => exact h.d3 hr
  | d4 x => exact (h.with_full false).with_consumer rfl trivial
  | p4 q => cases q <;> exact h.with_consumer rfl trivial
  | p5 x => exact h.with_consumer rfl trivial
  | p6 => exact h.with_consumer rfl trivial
  | p7 => exact h.with_consumer rfl trivial

end

end Sys2Proof.Machine
end

section
/-! PROOF. One buffer at any micro-step: the ranges, the storage and the queue of unread bytes under the
micro-steps of its two sides (10_state.md R11 to R14, R22; 20_memory.md R44). -/

namespace Sys2Proof.Machine

/-! ## Ranges and storage -/

section
variable {b : Buffer}

theorem Buffer.InRange.initStep (h : b.InRange) (p : InitPos) : (p.step b).1.InRange := by
  obtain ⟨hw, hr, hn⟩ := h
  cases p
  · exact ⟨b.cap_pos, hr, hn⟩
  · exact ⟨hw, b.cap_pos, hn⟩
  · exact ⟨hw, hr, Nat.zero_le _⟩
  · exact ⟨hw, hr, hn⟩

/-- A producer that has seen a free slot does not count past the capacity (R18). -/
theorem Buffer.InRange.enqStep (h : b.InRange) (av : Bool) {r : EnqRun} {payload : List Byte}
    (hp : ProducerOk b (some (r, payload))) : (r.step av payload b).1.InRange := by
  obtain ⟨hw, hr, hn⟩ := h
  rcases r.step_buffer_cases av payload b with
    he | ⟨x, -, he⟩ | ⟨-, he⟩ | ⟨hpos, he⟩ | ⟨-, he⟩ <;> rw [he]
  · exact ⟨hw, hr, hn⟩
  · exact ⟨hw, hr, hn⟩
  · exact ⟨b.advance_lt _, hr, hn⟩
  · simp only [ProducerOk, hpos] at hp
    exact ⟨hw, hr, hp.1⟩
  · exact ⟨hw, hr, hn⟩

theorem Buffer.InRange.deqStep (h : b.InRange) (f : Inst) (av : Bool) (m : Nat) (r : DeqRun) :
    (r.step f av m b).1.InRange := by
  obtain ⟨hw, hr, hn⟩ := h
  rcases r.step_buffer_cases f av m b with he | ⟨x, -, he⟩ | ⟨x, -, he⟩ | ⟨x, -, he⟩ <;> rw [he]
  · exact ⟨hw, hr, hn⟩
  · exact ⟨hw, b.advance_lt _, hn⟩
  · exact ⟨hw, hr, (Nat.sub_le _ _).trans hn⟩
  · exact ⟨hw, hr, hn⟩

/-- Storage does not speak of the registers. -/
theorem Buffer.StorageOk.of_mem_eq {b' : Buffer} (h : b.StorageOk) (hk : b'.k = b.k) (hm : b'.mem = b.mem) :
    b'.StorageOk := by
  simpa only [Buffer.StorageOk, Buffer.cap, hk, hm] using h

theorem Buffer.StorageOk.e1 (h : b.StorageOk) (hw : b.widx < b.cap) (x : Byte) : (b.e1 x).StorageOk := by
  obtain ⟨hwf, hslots⟩ := h
  refine ⟨memWf_memWrite _ _ _ hwf, fun c hc => ?_⟩
  rcases mem_memWrite _ _ _ c hc with hc | hc
  · exact hslots c hc
  · exact hc ▸ hw

theorem EnqRun.mem_step_cases (av : Bool) (payload : List Byte) (r : EnqRun) (b : Buffer) :
    (r.step av payload b).1.mem = b.mem ∨ ∃ x, (r.step av payload b).1 = b.e1 x := by
  rcases r.step_buffer_cases av payload b with he | ⟨x, -, he⟩ | ⟨-, he⟩ | ⟨-, he⟩ | ⟨-, he⟩
  case inr.inl => exact .inr ⟨x, he⟩
  all_goals exact .inl (by simp [he])

theorem Buffer.StorageOk.enqStep (h : b.StorageOk) (hw : b.widx < b.cap) (av : Bool) (payload : List Byte)
    (r : EnqRun) : (r.step av payload b).1.StorageOk := by
  rcases r.mem_step_cases av payload b with hm | ⟨x, he⟩
  · exact h.of_mem_eq (r.k_step av payload b) hm
  · rw [he]; exact h.e1 hw x

/-! ## The queue of unread bytes -/

/-- The queue depends on storage, the count and the slot of the oldest byte alone. -/
theorem Buffer.unread_congr (f : Inst) {b' : Buffer} {c c' : Option DeqRun} (hk : b'.k = b.k)
    (hn : b'.count = b.count) (ho : b'.oldest c' = b.oldest c)
    (hm : ∀ j, j < b.count →
      memRead b'.mem ((b.oldest c + j) % b.cap) = memRead b.mem ((b.oldest c + j) % b.cap)) :
    b'.unread f c' = b.unread f c := by
  have hcap : b'.cap = b.cap := by simp [Buffer.cap, hk]
  simp only [Buffer.unread, hn, ho, hcap]
  refine List.map_congr_left fun j hj => ?_
  simp only [Buffer.readSlot, hm j (List.mem_range.mp hj)]

variable {p : Option (EnqRun × List Byte)} {c : Option DeqRun}

/-- E3 appends the byte of the producer (20_memory.md R44). -/
theorem RingOk.unread_e3 (f : Inst) {r : EnqRun} {payload : List Byte} (h : RingOk b (some (r, payload)) c)
    (hr : r.pos = .e3) :
    ∃ x, payload[r.accepted]? = some x ∧ b.e3.unread f c = b.unread f c ++ [x] := by
  have hp := h.producer
  simp only [ProducerOk, hr] at hp
  obtain ⟨-, hn, hread⟩ := hp
  have hx := List.getElem?_eq_getElem hn
  refine ⟨payload[r.accepted], hx, ?_⟩
  have hslot : b.readSlot f ((b.oldest c + b.count) % b.cap) = payload[r.accepted] := by
    simp only [Buffer.readSlot, h.published_slot hr, hread, hx]
  simp only [Buffer.unread, Buffer.count_e3, List.range_succ, List.map_append, List.map_singleton]
  exact congrArg (_ ++ [·]) hslot

/-- D3 removes the oldest byte, which is the one the consumer read (R44). -/
theorem RingOk.unread_d3 (f : Inst) {out : List Byte} {x : Byte} {c' : Option DeqRun}
    (h : RingOk b p (some ⟨out, .d3 x⟩)) (hr : b.ridx < b.cap) (hc' : consLag c' = 0) :
    b.unread f (some ⟨out, .d3 x⟩) = x :: b.d3.unread f c' := by
  obtain ⟨hpos, hread⟩ : 0 < b.count ∧ memRead b.mem (b.oldest (some ⟨out, .d3 x⟩)) = some x := h.consumer
  obtain ⟨n, hn⟩ := Nat.exists_eq_succ_of_ne_zero hpos.ne'
  simp only [Buffer.unread, hn, Buffer.count_d3, List.range_succ_eq_map, List.map_cons, List.map_map,
    Nat.add_zero, Nat.mod_eq_of_lt (b.oldest_lt _), Nat.succ_sub_one]
  refine congrArg₂ List.cons ?_ (List.map_congr_left fun j _ => ?_)
  · simp only [Buffer.readSlot, hread]
  · exact (congrArg (b.readSlot f) (b.oldest_d3_add rfl hc' hr j)).symm

/-- What a producer's micro-step does to the queue: nothing, or E3 appends its byte. -/
theorem RingOk.unread_enqStep (f : Inst) (av : Bool) {r : EnqRun} {payload : List Byte}
    (h : RingOk b (some (r, payload)) c) (hw : b.widx < b.cap) :
    (r.step av payload b).1.unread f c = b.unread f c ∨
    (r.pos = .e3 ∧ ∃ x, payload[r.accepted]? = some x ∧
      (r.step av payload b).1.unread f c = b.unread f c ++ [x]) := by
  rcases r.step_buffer_cases av payload b with
    he | ⟨x, hpos, he⟩ | ⟨-, he⟩ | ⟨hpos, he⟩ | ⟨-, he⟩ <;> rw [he]
  · exact .inl rfl
  · have hp := h.producer
    simp only [ProducerOk, hpos] at hp
    have hlag : prodLag (some (r, payload)) = 0 := by simp [prodLag, enqLag, hpos]
    exact .inl (Buffer.unread_congr f rfl rfl rfl fun j hj =>
      memRead_memWrite_of_ne _ _ (h.unread_ne_widx hw hlag hp.2 hj))
  · exact .inl rfl
  · exact .inr ⟨hpos, h.unread_e3 f hpos⟩
  · exact .inl rfl

/-- What a consumer's micro-step does to the queue: nothing, or D3 removes the oldest byte, the one read. -/
theorem RingOk.unread_deqStep (f : Inst) (av : Bool) (m : Nat) {r : DeqRun} (h : RingOk b p (some r))
    (hr : b.ridx < b.cap) :
    (r.step f av m b).1.unread f (r.step f av m b).2.getLeft? = b.unread f (some r) ∨
    (∃ x, r.pos = .d3 x ∧
      b.unread f (some r) = x :: (r.step f av m b).1.unread f (r.step f av m b).2.getLeft?) := by
  obtain ⟨out, pos⟩ := r
  cases pos with
  | d2 x => exact .inl (Buffer.unread_congr f rfl rfl (b.oldest_d2 x hr) fun _ _ => rfl)
  | d3 x => exact .inr ⟨x, rfl, h.unread_d3 f hr rfl⟩
  | p0 => cases av <;> exact .inl rfl
  | p2 => by_cases hm : out.length < m <;> simp only [DeqRun.step, hm] <;> exact .inl rfl
  | d0 => by_cases he : b.isEmpty = true <;> simp only [DeqRun.step, he] <;> exact .inl rfl
  | p4 q => cases q <;> exact .inl rfl
  | _ => exact .inl rfl

end

end Sys2Proof.Machine
end

section
/-! PROOF. What a micro-step can do on one buffer, said once: nothing, a line of `INIT`, a line of a `DEQ`, or a line
of an `ENQ`, which a `WRITE` and an `RXIRQ` enter at W2 and RX6. -/

namespace Sys2Proof.Machine

/-- The `INIT` on `f` that an operation is inside of. -/
def Op.initOn (f : Inst) : Op → Option InitPos
  | .init g p => if g = f then some p else none
  | .tinit (.t1 p) => if f = .inbound then some p else none
  | .tinit (.t2 p) => if f = .outbound then some p else none
  | _ => none

/-- How a micro-step takes the buffer `f` from `b` to `b'`, the `ENQ` on it from `p` to `p'` and the `DEQ` on it
from `c` to `c'`, each with the batch that is under way, if any; `i` is the `INIT` that is under way. -/
inductive InstMove (f : Inst) (i : Option InitPos) (b b' : Buffer) (p p' : Option (EnqRun × List Byte))
    (c c' : Option DeqRun) : Prop
  | stays (hb : b' = b) (hp : p' = p) (hc : c' = c)
  | inits (q : InitPos) (h : i = some q) (hb : b' = (q.step b).1) (hp : p' = p) (hc : c' = c)
  | begins (payload : List Byte) (h : p = none) (hroom : b.count ≤ b.cap → payload.length ≤ b.free) (hb : b' = b)
      (hp : p' = some (⟨0, .q0⟩, payload)) (hc : c' = c)
  | produces (av : Bool) (r : EnqRun) (payload : List Byte) (h : p = some (r, payload))
      (hb : b' = (r.step av payload b).1) (hp : p' = (r.step av payload b).2.getLeft?.map (·, payload))
      (hc : c' = c)
  | consumes (av : Bool) (m : Nat) (r : DeqRun) (h : c = some r)
      (hb : b' = (r.step f av m b).1) (hp : p' = p) (hc : c' = (r.step f av m b).2.getLeft?)

/-- How the operation `o`, followed by `o'` (`none` when `o` has returned), moves on `f`. -/
abbrev Op.MovesOn (f : Inst) (o : Op) (b b' : Buffer) (o' : Option Op) : Prop :=
  InstMove f (o.initOn f) b b' (o.enqOn f) (o'.bind (Op.enqOn f)) (o.deqOn f) (o'.bind (Op.deqOn f))

/-- A buffer that is not full has room for a byte (40_buffer_ops.md R99). -/
theorem Buffer.one_le_free (b : Buffer) (hfull : ¬ b.isFull = true) (hn : b.count ≤ b.cap) : 1 ≤ b.free := by
  have hne : b.count ≠ b.cap := fun he => hfull (b.isFull_iff.mpr he)
  unfold Buffer.free
  omega

theorem microInit_movesOn (f g : Inst) (p : InitPos) (s : State) :
    Op.MovesOn f (.init g p) (s.buf f) ((microInit g p s).1.buf f) (microInit g p s).2.getLeft? := by
  by_cases hg : g = f
  · subst hg
    refine .inits p (by simp [Op.initOn]) ?_ ?_ ?_ <;>
      cases h : (p.step (s.buf g)).2 <;> simp [microInit, h, Op.enqOn, Op.deqOn]
  · have hf := fun b => s.buf_setBuf_of_ne b g f (Ne.symm hg)
    refine .stays ?_ ?_ ?_ <;>
      cases h : (p.step (s.buf g)).2 <;> simp [microInit, h, hf, Op.enqOn, Op.deqOn]

theorem microEnq_movesOn (f g : Inst) (av : Bool) (payload : List Byte) (r : EnqRun) (s : State) :
    Op.MovesOn f (.enq g av payload r) (s.buf f) ((microEnq g av payload r s).1.buf f)
      (microEnq g av payload r s).2.getLeft? := by
  by_cases hg : g = f
  · subst hg
    refine .produces av r payload (by simp [Op.enqOn]) (by simp [microEnq]) ?_ ?_ <;>
      cases h : (r.step av payload (s.buf g)).2 <;> simp [microEnq, h, Op.enqOn, Op.deqOn]
  · have hf := fun b => s.buf_setBuf_of_ne b g f (Ne.symm hg)
    refine .stays (by simp [microEnq, hf]) ?_ ?_ <;>
      cases h : (r.step av payload (s.buf g)).2 <;> simp [microEnq, h, hg, Op.enqOn, Op.deqOn]

theorem microDeq_movesOn (f g : Inst) (av : Bool) (m : Nat) (r : DeqRun) (s : State) :
    Op.MovesOn f (.deq g av m r) (s.buf f) ((microDeq g av m r s).1.buf f)
      (microDeq g av m r s).2.getLeft? := by
  by_cases hg : g = f
  · subst hg
    refine .consumes av m r (by simp [Op.deqOn]) (by simp [microDeq]) ?_ ?_ <;>
      cases h : (r.step g av m (s.buf g)).2 <;> simp [microDeq, h, Op.enqOn, Op.deqOn]
  · have hf := fun b => s.buf_setBuf_of_ne b g f (Ne.symm hg)
    refine .stays (by simp [microDeq, hf]) ?_ ?_ <;>
      cases h : (r.step g av m (s.buf g)).2 <;> simp [microDeq, h, hg, Op.enqOn, Op.deqOn]

theorem microTinit_movesOn (f : Inst) (p : TinitPos) (s : State) :
    Op.MovesOn f (.tinit p) (s.buf f) ((microTinit p s).1.buf f) (microTinit p s).2.getLeft? := by
  cases p with
  | t1 q =>
    cases f
    · refine .inits q rfl rfl ?_ ?_ <;>
        cases h : (q.step s.inb).2 <;> simp [microTinit, h, Op.enqOn, Op.deqOn]
    · refine .stays rfl ?_ ?_ <;>
        cases h : (q.step s.inb).2 <;> simp [microTinit, h, Op.enqOn, Op.deqOn]
  | t2 q =>
    cases f
    · refine .stays rfl ?_ ?_ <;>
        cases h : (q.step s.outb).2 <;> simp [microTinit, h, Op.enqOn, Op.deqOn]
    · refine .inits q rfl rfl ?_ ?_ <;>
        cases h : (q.step s.outb).2 <;> simp [microTinit, h, Op.enqOn, Op.deqOn]
  | t3 => exact .stays (by simp [microTinit]) rfl rfl
  | t4 => exact .stays (by simp [microTinit]) rfl rfl

theorem microWrite_movesOn (f : Inst) (av : Bool) (payload : List Byte) (p : WritePos) (s : State) :
    Op.MovesOn f (.write av payload p) (s.buf f) ((microWrite av payload p s).1.buf f)
      (microWrite av payload p s).2.getLeft? := by
  cases p with
  | w0 => cases av <;> exact .stays rfl rfl rfl
  | w1 =>
    by_cases hroom : payload.length ≤ s.outb.free
    · cases f
      · refine .stays rfl ?_ ?_ <;> simp [microWrite, hroom, Op.enqOn, Op.deqOn]
      · refine .begins payload rfl (fun _ => hroom) rfl ?_ ?_ <;> simp [microWrite, hroom, Op.enqOn, Op.deqOn]
    · refine .stays rfl ?_ ?_ <;> simp [microWrite, hroom, Op.enqOn, Op.deqOn]
  | w2 r =>
    cases f
    · refine .stays rfl ?_ ?_ <;>
        cases h : (r.step true payload s.outb).2 <;> simp [microWrite, h, Op.enqOn, Op.deqOn]
    · refine .produces true r payload rfl rfl ?_ ?_ <;>
        cases h : (r.step true payload s.outb).2 <;> simp [microWrite, h, Op.enqOn, Op.deqOn]
  | w3 =>
    by_cases hen : s.per.transmitActive = true <;> refine .stays rfl ?_ ?_ <;>
      simp [microWrite, hen, Op.enqOn, Op.deqOn]
  | w4 => exact .stays (by simp [microWrite]) rfl rfl
  | w5 => exact .stays rfl rfl rfl

theorem microRead1_movesOn (f : Inst) (p : ReadPos) (s : State) :
    Op.MovesOn f (.read1 p) (s.buf f) ((microRead1 p s).1.buf f) (microRead1 p s).2.getLeft? := by
  cases p with
  | x1 r =>
    cases f
    · refine .consumes true 1 r rfl rfl ?_ ?_ <;>
        cases h : (r.step .inbound true 1 s.inb).2 <;> simp [microRead1, h, Op.enqOn, Op.deqOn]
    · refine .stays rfl ?_ ?_ <;>
        cases h : (r.step .inbound true 1 s.inb).2 <;> simp [microRead1, h, Op.enqOn, Op.deqOn]
  | x2 bytes => cases bytes <;> exact .stays rfl rfl rfl
  | x3 x => exact .stays rfl rfl rfl

theorem microRxirq_movesOn (f : Inst) (p : RxPos) (s : State) :
    Op.MovesOn f (.rxirq p) (s.buf f) ((microRxirq p s).1.buf f) (microRxirq p s).2.getLeft? := by
  cases p with
  | rx1 => exact .stays (by simp [microRxirq]) rfl rfl
  | rx2 x e => cases e <;> exact .stays rfl rfl rfl
  | rx3 => exact .stays (by simp [microRxirq]) rfl rfl
  | rx4 => exact .stays rfl rfl rfl
  | rx5 x =>
    by_cases hfull : s.inb.isFull = true
    · refine .stays rfl ?_ ?_ <;> simp [microRxirq, hfull, Op.enqOn, Op.deqOn]
    · cases f
      · refine .begins [x] rfl (fun hn => s.inb.one_le_free hfull hn) rfl ?_ ?_ <;>
          simp [microRxirq, hfull, Op.enqOn, Op.deqOn]
      · refine .stays rfl ?_ ?_ <;> simp [microRxirq, hfull, Op.enqOn, Op.deqOn]
  | rx6 x r =>
    cases f
    · refine .produces true r [x] rfl rfl ?_ ?_ <;>
        cases h : (r.step true [x] s.inb).2 <;> simp [microRxirq, h, Op.enqOn, Op.deqOn]
    · refine .stays rfl ?_ ?_ <;>
        cases h : (r.step true [x] s.inb).2 <;> simp [microRxirq, h, Op.enqOn, Op.deqOn]
  | rx7 => exact .stays rfl rfl rfl

theorem microTxirq_movesOn (f : Inst) (p : TxPos) (s : State) :
    Op.MovesOn f (.txirq p) (s.buf f) ((microTxirq p s).1.buf f) (microTxirq p s).2.getLeft? := by
  cases p with
  | tx1 r =>
    cases f
    · refine .stays rfl ?_ ?_ <;>
        cases h : (r.step .outbound true 1 s.outb).2 <;> simp [microTxirq, h, Op.enqOn, Op.deqOn]
    · refine .consumes true 1 r rfl rfl ?_ ?_ <;>
        cases h : (r.step .outbound true 1 s.outb).2 <;> simp [microTxirq, h, Op.enqOn, Op.deqOn]
  | tx2 bytes => cases bytes <;> exact .stays rfl rfl rfl
  | tx3 x => exact .stays (by simp [microTxirq]) rfl rfl
  | tx4 => exact .stays rfl rfl rfl
  | tx5 => exact .stays (by simp [microTxirq]) rfl rfl
  | tx6 => exact .stays rfl rfl rfl

/-- Every micro-step moves on each buffer in one of these ways. -/
theorem microOp_movesOn (f : Inst) (o : Op) (s : State) :
    Op.MovesOn f o (s.buf f) ((microOp o s).1.buf f) (microOp o s).2.getLeft? := by
  cases o with
  | init g p => exact microInit_movesOn f g p s
  | enq g av payload r => exact microEnq_movesOn f g av payload r s
  | deq g av m r => exact microDeq_movesOn f g av m r s
  | tinit p => exact microTinit_movesOn f p s
  | write av payload p => exact microWrite_movesOn f av payload p s
  | read1 p => exact microRead1_movesOn f p s
  | rxirq p => exact microRxirq_movesOn f p s
  | txirq p => exact microTxirq_movesOn f p s

end Sys2Proof.Machine
end

section
/-! PROOF. Who is the producer and who the consumer of a buffer (10_state.md R24, 30_encoding.md R68), and what an
agent's micro-step leaves of the records, the flags and the roles. -/

namespace Sys2Proof.Machine

/-! ## Producer and consumer -/

/-- The agent that enqueues into `f`: the test agent before `TINIT` has returned, then the table's (R24). -/
def producerOf : Inst → Bool → Agent
  | .inbound, true => .rxi
  | .inbound, false => .fg
  | .outbound, _ => .fg

/-- The agent that dequeues from `f` (R24). -/
def consumerOf : Inst → Bool → Agent
  | .outbound, true => .txi
  | .outbound, false => .fg
  | .inbound, _ => .fg

theorem Op.enqOn_eq_some {f : Inst} {o : Op} {r : EnqRun} {payload : List Byte}
    (h : o.enqOn f = some (r, payload)) :
    (∃ av, o = .enq f av payload r) ∨ (f = .outbound ∧ ∃ av, o = .write av payload (.w2 r)) ∨
    (f = .inbound ∧ ∃ x, o = .rxirq (.rx6 x r) ∧ payload = [x]) := by
  unfold Op.enqOn at h
  split at h
  case h_1 g av q r' =>
    by_cases hg : g = f <;>
      simp only [hg, if_true, if_false, Option.some.injEq, Prod.mk.injEq, reduceCtorEq] at h
    exact .inl ⟨av, by rw [hg, h.1, h.2]⟩
  case h_2 av q r' =>
    by_cases hf : f = .outbound <;>
      simp only [hf, if_true, if_false, Option.some.injEq, Prod.mk.injEq, reduceCtorEq] at h
    exact .inr (.inl ⟨hf, av, by rw [h.1, h.2]⟩)
  case h_3 x r' =>
    by_cases hf : f = .inbound <;>
      simp only [hf, if_true, if_false, Option.some.injEq, Prod.mk.injEq, reduceCtorEq] at h
    exact .inr (.inr ⟨hf, x, by rw [h.1], h.2.symm⟩)
  case h_4 => cases h

theorem Op.deqOn_eq_some {f : Inst} {o : Op} {r : DeqRun} (h : o.deqOn f = some r) :
    (∃ av m, o = .deq f av m r) ∨ (f = .inbound ∧ o = .read1 (.x1 r)) ∨
    (f = .outbound ∧ o = .txirq (.tx1 r)) := by
  unfold Op.deqOn at h
  split at h
  case h_1 g av m r' =>
    by_cases hg : g = f <;> simp only [hg, if_true, if_false, Option.some.injEq, reduceCtorEq] at h
    exact .inl ⟨av, m, by rw [hg, h]⟩
  case h_2 r' =>
    by_cases hf : f = .inbound <;> simp only [hf, if_true, if_false, Option.some.injEq, reduceCtorEq] at h
    exact .inr (.inl ⟨hf, by rw [h]⟩)
  case h_3 r' =>
    by_cases hf : f = .outbound <;> simp only [hf, if_true, if_false, Option.some.injEq, reduceCtorEq] at h
    exact .inr (.inr ⟨hf, by rw [h]⟩)
  case h_4 => cases h

theorem Op.initOn_eq_some {f : Inst} {o : Op} {p : InitPos} (h : o.initOn f = some p) :
    o = .init f p ∨ (f = .inbound ∧ o = .tinit (.t1 p)) ∨ (f = .outbound ∧ o = .tinit (.t2 p)) := by
  unfold Op.initOn at h
  split at h
  case h_1 g q =>
    by_cases hg : g = f <;> simp only [hg, if_true, if_false, Option.some.injEq, reduceCtorEq] at h
    exact .inl (by rw [hg, h])
  case h_2 q =>
    by_cases hf : f = .inbound <;> simp only [hf, if_true, if_false, Option.some.injEq, reduceCtorEq] at h
    exact .inr (.inl ⟨hf, by rw [h]⟩)
  case h_3 q =>
    by_cases hf : f = .outbound <;> simp only [hf, if_true, if_false, Option.some.injEq, reduceCtorEq] at h
    exact .inr (.inr ⟨hf, by rw [h]⟩)
  case h_4 => cases h

/-! ## Roles -/

@[simp] theorem Op.fits_init (f : Inst) (p : InitPos) (a : Agent) (booted : Bool) :
    (Op.init f p).fits a booted = (a == .fg && !booted) := by cases a <;> rfl

@[simp] theorem Op.fits_enq (f : Inst) (av : Bool) (payload : List Byte) (r : EnqRun) (a : Agent) (booted : Bool) :
    (Op.enq f av payload r).fits a booted = (a == .fg && !booted) := by cases a <;> rfl

@[simp] theorem Op.fits_deq (f : Inst) (av : Bool) (m : Nat) (r : DeqRun) (a : Agent) (booted : Bool) :
    (Op.deq f av m r).fits a booted = (a == .fg && !booted) := by cases a <;> rfl

@[simp] theorem Op.fits_tinit (p : TinitPos) (a : Agent) (booted : Bool) :
    (Op.tinit p).fits a booted = (a == .fg && !booted) := by cases a <;> rfl

@[simp] theorem Op.fits_write (av : Bool) (payload : List Byte) (p : WritePos) (a : Agent) (booted : Bool) :
    (Op.write av payload p).fits a booted = (a == .fg && booted) := by cases a <;> rfl

@[simp] theorem Op.fits_read1 (p : ReadPos) (a : Agent) (booted : Bool) :
    (Op.read1 p).fits a booted = (a == .fg && booted) := by cases a <;> rfl

@[simp] theorem Op.fits_rxirq (p : RxPos) (a : Agent) (booted : Bool) :
    (Op.rxirq p).fits a booted = (a == .rxi && booted) := by cases a <;> rfl

@[simp] theorem Op.fits_txirq (p : TxPos) (a : Agent) (booted : Bool) :
    (Op.txirq p).fits a booted = (a == .txi && booted) := by cases a <;> rfl

/-- An agent inside an `ENQ` on `f` is the producer of `f`. -/
theorem Op.producer_of_fits {f : Inst} {o : Op} {a : Agent} {booted : Bool} {x : EnqRun × List Byte}
    (h : o.fits a booted = true) (hx : o.enqOn f = some x) : a = producerOf f booted := by
  rcases Op.enqOn_eq_some hx with ⟨av, rfl⟩ | ⟨rfl, av, rfl⟩ | ⟨rfl, y, rfl, -⟩ <;> simp at h <;>
    obtain ⟨rfl, rfl⟩ := h
  · cases f <;> rfl
  · rfl
  · rfl

/-- An agent inside a `DEQ` on `f` is the consumer of `f`. -/
theorem Op.consumer_of_fits {f : Inst} {o : Op} {a : Agent} {booted : Bool} {x : DeqRun}
    (h : o.fits a booted = true) (hx : o.deqOn f = some x) : a = consumerOf f booted := by
  rcases Op.deqOn_eq_some hx with ⟨av, m, rfl⟩ | ⟨rfl, rfl⟩ | ⟨rfl, rfl⟩ <;> simp at h <;>
    obtain ⟨rfl, rfl⟩ := h
  · cases f <;> rfl
  · rfl
  · rfl

/-- An `INIT` or `TINIT` runs before `TINIT` has returned, on the foreground. -/
theorem Op.fits_of_initOn {f : Inst} {o : Op} {a : Agent} {booted : Bool} {p : InitPos}
    (h : o.fits a booted = true) (hp : o.initOn f = some p) : a = .fg ∧ booted = false := by
  rcases Op.initOn_eq_some hp with rfl | ⟨-, rfl⟩ | ⟨-, rfl⟩ <;> simpa using h

/-- Handlers run in an assembled transport only (R68, R181). -/
theorem Op.booted_of_fits {o : Op} {a : Agent} {booted : Bool} (h : o.fits a booted = true) (ha : a ≠ .fg) :
    booted = true := by
  cases o <;> simp [ha] at h <;> exact h.2

namespace State.RolesOk

variable {s : State}

/-- What only one agent can be inside of, no other agent is inside of. -/
theorem view_none {α : Type} {view : Op → Option α} {side : Bool → Agent} (h : s.RolesOk)
    (hside : ∀ {o a booted x}, Op.fits o a booted = true → view o = some x → a = side booted)
    {a : Agent} (ha : a ≠ side s.booted) : (s.agent a).inflight.bind view = none := by
  refine Option.eq_none_iff_forall_not_mem.mpr fun x hx => ha ?_
  obtain ⟨o, ho, hox⟩ := Option.bind_eq_some_iff.mp hx
  exact hside (h a o ho) hox

theorem enqOn_none (h : s.RolesOk) {f : Inst} {a : Agent} (ha : a ≠ producerOf f s.booted) :
    (s.agent a).inflight.bind (Op.enqOn f) = none :=
  h.view_none Op.producer_of_fits ha

theorem deqOn_none (h : s.RolesOk) {f : Inst} {a : Agent} (ha : a ≠ consumerOf f s.booted) :
    (s.agent a).inflight.bind (Op.deqOn f) = none :=
  h.view_none Op.consumer_of_fits ha

/-- Nobody but the producer is inside an `ENQ` on `f`. -/
theorem producing_eq (h : s.RolesOk) (f : Inst) :
    s.producing f = (s.agent (producerOf f s.booted)).inflight.bind (Op.enqOn f) := by
  cases f
  · cases hb : s.booted
    · have hr : s.rxi.inflight.bind (Op.enqOn .inbound) = none :=
        h.enqOn_none (a := .rxi) (by simp [hb, producerOf])
      simp [State.producing, producerOf, hr]
    · have hf : s.fg.inflight.bind (Op.enqOn .inbound) = none :=
        h.enqOn_none (a := .fg) (by simp [hb, producerOf])
      simp [State.producing, producerOf, hf]
  · rfl

/-- Nobody but the consumer is inside a `DEQ` on `f`. -/
theorem consuming_eq (h : s.RolesOk) (f : Inst) :
    s.consuming f = (s.agent (consumerOf f s.booted)).inflight.bind (Op.deqOn f) := by
  cases f
  · rfl
  · cases hb : s.booted
    · have ht : s.txi.inflight.bind (Op.deqOn .outbound) = none :=
        h.deqOn_none (a := .txi) (by simp [hb, consumerOf])
      simp [State.consuming, consumerOf, ht]
    · have hf : s.fg.inflight.bind (Op.deqOn .outbound) = none :=
        h.deqOn_none (a := .fg) (by simp [hb, consumerOf])
      simp [State.consuming, consumerOf, hf]

/-- Before `TINIT` has returned no handler has anything in flight. -/
theorem handler_idle (h : s.RolesOk) (hb : s.booted = false) {a : Agent} (ha : a ≠ .fg) :
    (s.agent a).inflight = none := by
  refine Option.eq_none_iff_forall_not_mem.mpr fun o ho => ?_
  have := Op.booted_of_fits (h a o ho) ha
  simp [hb] at this

end State.RolesOk

/-! ## What a micro-step leaves of the records and the flags -/

@[simp] theorem State.inflight_advance_same (s : State) (a : Agent) (o : Op) :
    ((s.advance a o).agent a).inflight = (microOp o s).2.getLeft? := by
  rcases s.advance_cases a o with ⟨o', hm, he⟩ | ⟨r, hm, he⟩ <;> simp [he, hm]

@[simp] theorem State.buf_advance (s : State) (a : Agent) (o : Op) (f : Inst) :
    (s.advance a o).buf f = (microOp o s).1.buf f := by
  rcases s.advance_cases a o with ⟨o', -, he⟩ | ⟨r, -, he⟩ <;> simp [he]

@[simp] theorem State.per_advance (s : State) (a : Agent) (o : Op) :
    (s.advance a o).per = (microOp o s).1.per := by
  rcases s.advance_cases a o with ⟨o', -, he⟩ | ⟨r, -, he⟩ <;> simp [he]

@[simp] theorem State.booted_advance (s : State) (a : Agent) (o : Op) :
    (s.advance a o).booted = (microOp o s).1.booted := by
  rcases s.advance_cases a o with ⟨o', -, he⟩ | ⟨r, -, he⟩ <;> simp [he]

@[simp] theorem State.initialised_advance (s : State) (a : Agent) (o : Op) (f : Inst) :
    (s.advance a o).initialised f = (microOp o s).1.initialised f := by
  rcases s.advance_cases a o with ⟨o', -, he⟩ | ⟨r, -, he⟩ <;> simp [he]

/-- Only the return of `TINIT`, T4, sets the boot flag (log 12). -/
theorem microOp_booted (o : Op) (s : State) (h : o ≠ .tinit .t4) : (microOp o s).1.booted = s.booted := by
  cases o with
  | init f p => cases hp : (p.step (s.buf f)).2 <;> simp [microOp, microInit, hp]
  | enq f av payload r => simp [microOp, microEnq]
  | deq f av m r => simp [microOp, microDeq]
  | tinit p => cases p <;> simp_all [microOp, microTinit]
  | write av payload p => cases p <;> simp [microOp, microWrite]
  | read1 p =>
    cases p with
    | x2 bytes => cases bytes <;> rfl
    | _ => simp [microOp, microRead1]
  | rxirq p => cases p <;> simp [microOp, microRxirq]
  | txirq p =>
    cases p with
    | tx2 bytes => cases bytes <;> rfl
    | _ => simp [microOp, microTxirq]

/-- Only I4 of `INIT.f` and T4 make `f` initialised (log 12). -/
theorem microOp_initialised (o : Op) (s : State) (f : Inst) (h4 : o ≠ .tinit .t4) (hi : o ≠ .init f .i4) :
    (microOp o s).1.initialised f = s.initialised f := by
  cases o with
  | init g p =>
    cases p with
    | i4 =>
      have hg : f ≠ g := fun he => hi (by rw [he])
      simp [microOp, microInit, InitPos.step, State.initialised_setInitialised_of_ne _ _ _ _ hg]
    | _ => simp [microOp, microInit, InitPos.step]
  | enq g av payload r => simp [microOp, microEnq]
  | deq g av m r => simp [microOp, microDeq]
  | tinit p => cases p <;> simp_all [microOp, microTinit]
  | write av payload p => cases p <;> simp [microOp, microWrite]
  | read1 p =>
    cases p with
    | x2 bytes => cases bytes <;> rfl
    | _ => simp [microOp, microRead1]
  | rxirq p => cases p <;> simp [microOp, microRxirq]
  | txirq p =>
    cases p with
    | tx2 bytes => cases bytes <;> rfl
    | _ => simp [microOp, microTxirq]

/-- What an agent is inside of after a micro-step, it may be inside of as before. -/
theorem microOp_fits (o o' : Op) (s : State) (a : Agent) (booted : Bool) (h : (microOp o s).2.getLeft? = some o') :
    o'.fits a booted = o.fits a booted := by
  cases o with
  | init g p =>
    cases hp : (p.step (s.buf g)).2 <;> simp [microOp, microInit, hp] at h
    subst h; simp
  | enq g av payload r =>
    cases hr : (r.step av payload (s.buf g)).2 <;> simp [microOp, microEnq, hr] at h
    subst h; simp
  | deq g av m r =>
    cases hr : (r.step g av m (s.buf g)).2 <;> simp [microOp, microDeq, hr] at h
    subst h; simp
  | tinit p =>
    cases p with
    | t1 q => cases hq : (q.step s.inb).2 <;> simp [microOp, microTinit, hq] at h <;> subst h <;> simp
    | t2 q => cases hq : (q.step s.outb).2 <;> simp [microOp, microTinit, hq] at h <;> subst h <;> simp
    | t3 => cases h; simp
    | t4 => cases h
  | write av payload p =>
    cases p with
    | w0 => cases av <;> cases h; simp
    | w2 r =>
      cases hr : (r.step true payload s.outb).2 <;> simp [microOp, microWrite, hr] at h <;> subst h <;> simp
    | w5 => cases h
    | _ => cases h; simp
  | read1 p =>
    cases p with
    | x1 r =>
      cases hr : (r.step .inbound true 1 s.inb).2 <;> simp [microOp, microRead1, hr] at h <;> subst h <;> simp
    | x2 bytes => cases bytes <;> cases h; simp
    | x3 x => cases h
  | rxirq p =>
    cases p with
    | rx4 => cases h
    | rx5 x => by_cases hf : s.inb.isFull = true <;> simp [microOp, microRxirq, hf] at h; subst h; simp
    | rx6 x r => cases hr : (r.step true [x] s.inb).2 <;> simp [microOp, microRxirq, hr] at h <;> subst h <;> simp
    | rx7 => cases h
    | _ => cases h; simp
  | txirq p =>
    cases p with
    | tx1 r =>
      cases hr : (r.step .outbound true 1 s.outb).2 <;> simp [microOp, microTxirq, hr] at h <;> subst h <;> simp
    | tx2 bytes => cases bytes <;> cases h <;> simp
    | tx4 => cases h
    | tx6 => cases h
    | _ => cases h; simp

end Sys2Proof.Machine
end

section
/-! PROOF. One micro-step of an agent keeps the invariant, part by part: roles, nesting, initialisation, and the
buffers (10_state.md R18, R20; 20_memory.md R44, R52, R53). -/

namespace Sys2Proof.Machine

/-! ## Roles and nesting -/

/-- While the foreground may move, no handler has anything in flight (20_memory.md R52). -/
theorem State.NestingOk.handler_idle {s : State} (h : s.NestingOk) (hm : s.mayMove .fg = true) {d : Agent}
    (hd : d ≠ .fg) : (s.agent d).inflight = none := by
  have hact : s.active = [] := (s.mayMove_fg_iff h.noForeground).mp hm
  simpa [hact] using h.exact d hd

section
variable {s : State} {a : Agent} {o : Op}

theorem State.RolesOk.booted_of_tinit (h : s.RolesOk) {p : TinitPos} (ho : (s.agent a).inflight = some (.tinit p)) :
    a = .fg ∧ s.booted = false := by
  simpa using h a _ ho

/-- When `TINIT` has returned nobody has anything in flight. -/
theorem State.RolesOk.idle_after_tinit (h : s.RolesOk) (ho : (s.agent a).inflight = some (.tinit .t4)) (d : Agent) :
    ((s.advance a (.tinit .t4)).agent d).inflight = none := by
  obtain ⟨rfl, hb⟩ := h.booted_of_tinit ho
  by_cases hd : d = .fg
  · rw [hd, State.inflight_advance_same]; rfl
  · rw [s.advance_other _ _ _ hd, h.handler_idle hb hd]

theorem State.RolesOk.advance (h : s.RolesOk) (ho : (s.agent a).inflight = some o) :
    (s.advance a o).RolesOk := by
  intro d o' hd
  by_cases h4 : o = .tinit .t4
  · subst h4
    rw [h.idle_after_tinit ho d] at hd
    cases hd
  · rw [State.booted_advance, microOp_booted o s h4]
    by_cases hda : d = a
    · subst hda
      rw [State.inflight_advance_same] at hd
      rw [microOp_fits o o' s d _ hd]
      exact h d o ho
    · rw [s.advance_other _ _ _ hda] at hd
      exact h d o' hd

theorem State.NestingOk.advance (h : s.NestingOk) (ho : (s.agent a).inflight = some o)
    (hm : s.mayMove a = true) : (s.advance a o).NestingOk := by
  obtain ⟨-, -, -, hact, -, -⟩ := microOp_frame o s
  rcases s.advance_cases a o with ⟨o', hres, he⟩ | ⟨r, hres, he⟩
  · have hactive : (s.advance a o).active = s.active := by simp [he, hact]
    refine ⟨hactive ▸ h.once, hactive ▸ h.noForeground, fun d hd => ?_⟩
    rw [hactive, h.exact d hd]
    by_cases hda : d = a
    · subst hda; simp [ho, hres]
    · rw [s.advance_other _ _ _ hda]
  · by_cases hfg : a = .fg
    · subst hfg
      have hactive : (s.advance .fg o).active = s.active := by simp [he, hact]
      refine ⟨hactive ▸ h.once, hactive ▸ h.noForeground, fun d hd => ?_⟩
      rw [hactive, h.exact d hd, s.advance_other _ _ _ hd]
    · obtain ⟨rest, hrest⟩ := (s.mayMove_handler_iff a hfg).mp hm
      have hactive : (s.advance a o).active = rest := by
        cases a
        case fg => exact absurd rfl hfg
        all_goals simp [he, hact, hrest]
      obtain ⟨hnotin, honce⟩ := List.nodup_cons.mp (hrest ▸ h.once)
      refine ⟨hactive ▸ honce, hactive ▸ fun hmem => h.noForeground (hrest ▸ List.mem_cons_of_mem _ hmem),
        fun d hd => ?_⟩
      rw [hactive]
      by_cases hda : d = a
      · subst hda; simp [hres, hnotin]
      · rw [s.advance_other _ _ _ hda, ← h.exact d hd, hrest]
        simp [hda]

/-! ## The two sides of a buffer -/

/-- A micro-step carries the one agent that can be inside of a batch on with it, or is of another agent. -/
theorem State.RolesOk.view_advance {α : Type} {view : Op → Option α} {side : Bool → Agent} (h : s.RolesOk)
    (ho : (s.agent a).inflight = some o)
    (hside : ∀ {o a booted x}, Op.fits o a booted = true → view o = some x → a = side booted)
    (hfg : side false = .fg) :
    ((s.agent (side s.booted)).inflight.bind view = view o ∧
      ((s.advance a o).agent (side (s.advance a o).booted)).inflight.bind view =
        (microOp o s).2.getLeft?.bind view) ∨
    (view o = none ∧ (microOp o s).2.getLeft?.bind view = none ∧
      ((s.advance a o).agent (side (s.advance a o).booted)).inflight.bind view =
        (s.agent (side s.booted)).inflight.bind view) := by
  by_cases h4 : o = .tinit .t4
  · subst h4
    obtain ⟨rfl, hb⟩ := h.booted_of_tinit ho
    rw [h.idle_after_tinit ho, hb, hfg, ho]
    exact .inl ⟨rfl, rfl⟩
  · have hb : (s.advance a o).booted = s.booted := by rw [State.booted_advance, microOp_booted o s h4]
    have ht := h.advance ho
    rw [hb]
    by_cases ha : a = side s.booted
    · rw [← ha, ho, State.inflight_advance_same]
      exact .inl ⟨rfl, rfl⟩
    · refine .inr ⟨by simpa [ho] using h.view_none hside ha, ?_, ?_⟩
      · simpa only [State.inflight_advance_same] using ht.view_none hside (a := a) (hb ▸ ha)
      · rw [s.advance_other _ _ _ (Ne.symm ha)]

/-- What a move does on a buffer, seen from the state: the batches that are not the mover's stay. -/
theorem InstMove.lift {f : Inst} {i : Option InitPos} {b b' : Buffer} {p p' q q' : Option (EnqRun × List Byte)}
    {c c' d d' : Option DeqRun} (h : InstMove f i b b' p p' c c')
    (hp : (q = p ∧ q' = p') ∨ (p = none ∧ p' = none ∧ q' = q))
    (hc : (d = c ∧ d' = c') ∨ (c = none ∧ c' = none ∧ d' = d)) : InstMove f i b b' q q' d d' := by
  have hpe : p' = p → q' = q := fun he => by
    rcases hp with ⟨rfl, rfl⟩ | ⟨-, -, hq⟩
    · exact he
    · exact hq
  have hce : c' = c → d' = d := fun he => by
    rcases hc with ⟨rfl, rfl⟩ | ⟨-, -, hd⟩
    · exact he
    · exact hd
  cases h with
  | stays hb h1 h2 => exact .stays hb (hpe h1) (hce h2)
  | inits r hi hb h1 h2 => exact .inits r hi hb (hpe h1) (hce h2)
  | begins payload h0 hroom hb h1 h2 =>
    rcases hp with ⟨rfl, rfl⟩ | ⟨-, he, -⟩
    · exact .begins payload h0 hroom hb h1 (hce h2)
    · rw [he] at h1; cases h1
  | produces av r payload h0 hb h1 h2 =>
    rcases hp with ⟨rfl, rfl⟩ | ⟨he, -, -⟩
    · exact .produces av r payload h0 hb h1 (hce h2)
    · rw [he] at h0; cases h0
  | consumes av m r h0 hb h1 h2 =>
    rcases hc with ⟨rfl, rfl⟩ | ⟨he, -, -⟩
    · exact .consumes av m r h0 hb (hpe h1) h2
    · rw [he] at h0; cases h0

/-- All that a micro-step of an agent can do on a buffer. -/
theorem State.RolesOk.instMove_advance (h : s.RolesOk) (ho : (s.agent a).inflight = some o) (f : Inst) :
    InstMove f (o.initOn f) (s.buf f) ((s.advance a o).buf f) (s.producing f) ((s.advance a o).producing f)
      (s.consuming f) ((s.advance a o).consuming f) := by
  have ht := h.advance ho
  rw [State.buf_advance, h.producing_eq, ht.producing_eq, h.consuming_eq, ht.consuming_eq]
  refine (microOp_movesOn f o s).lift (h.view_advance ho Op.producer_of_fits ?_)
    (h.view_advance ho Op.consumer_of_fits ?_) <;> cases f <;> rfl

end

/-! ## The buffers -/

/-- What holds of a buffer at any micro-step: the ranges, the storage and, once it is initialised, the ring. -/
structure InstOk (initialised : Bool) (b : Buffer) (p : Option (EnqRun × List Byte)) (c : Option DeqRun) : Prop where
  inRange : b.InRange
  storage : b.StorageOk
  ring : initialised = true → RingOk b p c

/-- No `ENQ` and no `DEQ` is under way on a buffer that is not initialised, no `INIT` on one that is. -/
structure UnderWay (initialised : Bool) (i : Option InitPos) (p : Option (EnqRun × List Byte)) (c : Option DeqRun) :
    Prop where
  initialising : i ≠ none → initialised = false
  producing : p ≠ none → initialised = true
  consuming : c ≠ none → initialised = true

theorem InstOk.move {f : Inst} {v : Bool} {i : Option InitPos} {b b' : Buffer} {p p' : Option (EnqRun × List Byte)}
    {c c' : Option DeqRun} (h : InstOk v b p c) (hu : UnderWay v i p c) (hmove : InstMove f i b b' p p' c c') :
    InstOk v b' p' c' := by
  obtain ⟨hr, hs, hring⟩ := h
  obtain ⟨hw, hx, hn⟩ := id hr
  cases hmove with
  | stays hb hp hc => subst hb hp hc; exact ⟨hr, hs, hring⟩
  | inits q hi hb hp hc =>
    subst hb hp hc
    refine ⟨hr.initStep q, hs.of_mem_eq (q.k_step b) (q.mem_step b), fun hv => ?_⟩
    rw [hu.initialising (by simp [hi])] at hv
    cases hv
  | begins payload h0 hroom hb hp hc =>
    subst hb hp hc
    exact ⟨hr, hs, fun hv => (hring hv).with_producer (by rw [h0]; rfl) rfl⟩
  | produces av r payload h0 hb hp hc =>
    subst hb hp hc h0
    have hrg := hring (hu.producing (by simp))
    exact ⟨hr.enqStep av hrg.producer, hs.enqStep hw av payload r, fun _ => hrg.enqStep av hw hn⟩
  | consumes av m r h0 hb hp hc =>
    subst hb hp hc h0
    have hrg := hring (hu.consuming (by simp))
    exact ⟨hr.deqStep f av m r, hs.of_mem_eq (r.k_step f av m b) (r.mem_step f av m b),
      fun _ => hrg.deqStep f av m hx⟩

end Sys2Proof.Machine
end

section
/-! PROOF. One micro-step of an agent keeps the invariant: initialisation (10_state.md R31, R32), and with it the
buffers. -/

namespace Sys2Proof.Machine

section
variable {s : State} {a : Agent} {o : Op}

/-! ## Initialisation -/

theorem State.BootOk.initialised_of_booted (h : s.BootOk) (hb : s.booted = true) (f : Inst) :
    s.initialised f = true := by
  obtain ⟨hin, hout⟩ := h.1 hb
  cases f
  · exact hin
  · exact hout

/-- In an assembled transport initialisation says no more than that both buffers are initialised. -/
theorem State.BootOk.of_booted (hr : s.RolesOk) (hb : s.booted = true)
    (hin : s.initIn = true) (hout : s.initOut = true) : s.BootOk := by
  refine ⟨fun _ => ⟨hin, hout⟩, ?_⟩
  cases ho : s.fg.inflight with
  | none => trivial
  | some o =>
    have hfit := hr .fg o ho
    cases o <;> simp_all

/-- With nothing in flight on the foreground initialisation says no more than that. -/
theorem State.BootOk.of_idle (hb : s.booted = true → s.initIn = true ∧ s.initOut = true)
    (hf : s.fg.inflight = none) : s.BootOk :=
  ⟨hb, by rw [hf]; trivial⟩

/-- An `INIT` or `TINIT` in flight on `f`: `f` counts as not initialised, and what stands before the position is
done. -/
theorem State.BootOk.of_initOn (h : s.BootOk) {f : Inst} {p : InitPos} (ho : s.fg.inflight = some o)
    (hp : o.initOn f = some p) : s.initialised f = false ∧ initProgress p (s.buf f) := by
  have hfg := h.2
  rcases Op.initOn_eq_some hp with rfl | ⟨rfl, rfl⟩ | ⟨rfl, rfl⟩ <;> rw [ho] at hfg
  · exact hfg
  · obtain ⟨hin, -, hprog⟩ := hfg
    exact ⟨hin, hprog⟩
  · obtain ⟨-, hout, -, hprog⟩ := hfg
    exact ⟨hout, hprog⟩

/-- An `ENQ` or `DEQ` in flight is on an initialised buffer. -/
theorem State.Inv.initialised_of_enqOn (h : s.Inv) (ho : (s.agent a).inflight = some o) {f : Inst}
    {x : EnqRun × List Byte} (hx : o.enqOn f = some x) : s.initialised f = true := by
  have hfit := h.roles a o ho
  rcases Op.enqOn_eq_some hx with ⟨av, rfl⟩ | ⟨rfl, av, rfl⟩ | ⟨rfl, y, rfl, -⟩ <;> simp at hfit
  · obtain ⟨rfl, -⟩ := hfit
    have hfg := h.boot.2
    rw [show s.fg.inflight = _ from ho] at hfg
    exact hfg
  · exact h.boot.initialised_of_booted hfit.2 _
  · exact h.boot.initialised_of_booted hfit.2 _

theorem State.Inv.initialised_of_deqOn (h : s.Inv) (ho : (s.agent a).inflight = some o) {f : Inst}
    {x : DeqRun} (hx : o.deqOn f = some x) : s.initialised f = true := by
  have hfit := h.roles a o ho
  rcases Op.deqOn_eq_some hx with ⟨av, m, rfl⟩ | ⟨rfl, rfl⟩ | ⟨rfl, rfl⟩ <;> simp at hfit
  · obtain ⟨rfl, -⟩ := hfit
    have hfg := h.boot.2
    rw [show s.fg.inflight = _ from ho] at hfg
    exact hfg
  · exact h.boot.initialised_of_booted hfit.2 _
  · exact h.boot.initialised_of_booted hfit.2 _

theorem State.Inv.initialised_of_producing (h : s.Inv) {f : Inst} (hp : s.producing f ≠ none) :
    s.initialised f = true := by
  rw [h.roles.producing_eq] at hp
  obtain ⟨x, hx⟩ := Option.ne_none_iff_exists'.mp hp
  obtain ⟨o, ho, hox⟩ := Option.bind_eq_some_iff.mp hx
  exact h.initialised_of_enqOn ho hox

theorem State.Inv.initialised_of_consuming (h : s.Inv) {f : Inst} (hc : s.consuming f ≠ none) :
    s.initialised f = true := by
  rw [h.roles.consuming_eq] at hc
  obtain ⟨x, hx⟩ := Option.ne_none_iff_exists'.mp hc
  obtain ⟨o, ho, hox⟩ := Option.bind_eq_some_iff.mp hx
  exact h.initialised_of_deqOn ho hox

theorem State.Inv.underWay (h : s.Inv) (ho : (s.agent a).inflight = some o) (f : Inst) :
    UnderWay (s.initialised f) (o.initOn f) (s.producing f) (s.consuming f) := by
  refine ⟨fun hi => ?_, h.initialised_of_producing, h.initialised_of_consuming⟩
  obtain ⟨p, hp⟩ := Option.ne_none_iff_exists'.mp hi
  obtain ⟨rfl, -⟩ := Op.fits_of_initOn (h.roles a o ho) hp
  exact (h.boot.of_initOn ho hp).1

theorem State.Inv.instOk (h : s.Inv) (f : Inst) :
    InstOk (s.initialised f) (s.buf f) (s.producing f) (s.consuming f) :=
  ⟨h.inRange f, h.storage f, h.ring f⟩

/-- All that a micro-step of `INIT` or `TINIT` leaves done (R81, R111). -/
theorem initProgress_step {p q : InitPos} {b : Buffer} (h : initProgress p b) (hq : (p.step b).2 = some q) :
    initProgress q (p.step b).1 := by
  cases p <;> cases hq <;> simp_all [initProgress, InitPos.step, Buffer.i1, Buffer.i2, Buffer.i3]

theorem isReset_of_initProgress {p : InitPos} {b : Buffer} (h : initProgress p b) (hq : (p.step b).2 = none) :
    (p.step b).1.IsReset := by
  cases p <;> cases hq
  obtain ⟨hw, hr, hn⟩ := h
  exact ⟨hw, hr, hn, rfl⟩

theorem State.BootOk.advance_init {f : Inst} {p : InitPos} (h : s.BootOk) (hb : s.booted = false)
    (ho : s.fg.inflight = some (.init f p)) : (s.advance .fg (.init f p)).BootOk := by
  obtain ⟨hinit, hprog⟩ := h.of_initOn ho (f := f) (p := p) (by simp [Op.initOn])
  cases hq : (p.step (s.buf f)).2 with
  | none => simp [State.BootOk, State.advance, microOp, microInit, hq, hb]
  | some q =>
    have := initProgress_step hprog hq
    simpa [State.BootOk, State.advance, microOp, microInit, hq, hb, hinit] using this

theorem State.BootOk.advance_tinit {p : TinitPos} (h : s.BootOk) (hb : s.booted = false)
    (ho : s.fg.inflight = some (.tinit p)) : (s.advance .fg (.tinit p)).BootOk := by
  have hdone := h.2
  rw [ho] at hdone
  cases p with
  | t1 q =>
    obtain ⟨hin, hout, hprog⟩ := hdone
    cases hq : (q.step s.inb).2 with
    | none =>
      have := isReset_of_initProgress hprog hq
      simpa [State.BootOk, State.advance, microOp, microTinit, hq, hb, hin, hout, initProgress] using this
    | some q' =>
      have := initProgress_step hprog hq
      simpa [State.BootOk, State.advance, microOp, microTinit, hq, hb, hin, hout] using this
  | t2 q =>
    obtain ⟨hin, hout, hreset, hprog⟩ := hdone
    cases hq : (q.step s.outb).2 with
    | none =>
      have := isReset_of_initProgress hprog hq
      simpa [State.BootOk, State.advance, microOp, microTinit, hq, hb, hin, hout, hreset] using this
    | some q' =>
      have := initProgress_step hprog hq
      simpa [State.BootOk, State.advance, microOp, microTinit, hq, hb, hin, hout, hreset] using this
  | t3 => simpa [State.BootOk, State.advance, microOp, microTinit, hb] using hdone
  | t4 => simp [State.BootOk, State.advance, microOp, microTinit]

theorem State.BootOk.advance_enq {f : Inst} {av : Bool} {payload : List Byte} {r : EnqRun} (h : s.BootOk)
    (hb : s.booted = false) (ho : s.fg.inflight = some (.enq f av payload r)) :
    (s.advance .fg (.enq f av payload r)).BootOk := by
  have hinit := h.2
  rw [ho] at hinit
  cases hq : (r.step av payload (s.buf f)).2 with
  | inl r' => simpa [State.BootOk, State.advance, microOp, microEnq, hq, hb] using hinit
  | inr n => simp [State.BootOk, State.advance, microOp, microEnq, hq, hb]

theorem State.BootOk.advance_deq {f : Inst} {av : Bool} {m : Nat} {r : DeqRun} (h : s.BootOk)
    (hb : s.booted = false) (ho : s.fg.inflight = some (.deq f av m r)) :
    (s.advance .fg (.deq f av m r)).BootOk := by
  have hinit := h.2
  rw [ho] at hinit
  cases hq : (r.step f av m (s.buf f)).2 with
  | inl r' => simpa [State.BootOk, State.advance, microOp, microDeq, hq, hb] using hinit
  | inr out => simp [State.BootOk, State.advance, microOp, microDeq, hq, hb]

theorem State.BootOk.advance_booted (h : s.BootOk) (hr : s.RolesOk) (ho : (s.agent a).inflight = some o)
    (hb : s.booted = true) : (s.advance a o).BootOk := by
  have h4 : o ≠ .tinit .t4 := fun he => by
    have := (hr.booted_of_tinit (he ▸ ho)).2
    simp [hb] at this
  have hi : ∀ f, o ≠ .init f .i4 := fun f he => by
    have := hr a _ ho
    simp [he, hb] at this
  have hinit : ∀ f, (s.advance a o).initialised f = true := fun f => by
    rw [State.initialised_advance, microOp_initialised o s f h4 (hi f), h.initialised_of_booted hb f]
  exact .of_booted (hr.advance ho) (by rw [State.booted_advance, microOp_booted o s h4, hb])
    (hinit .inbound) (hinit .outbound)

/-- A micro-step of an agent keeps what is said of initialisation (10_state.md R31, R32). -/
theorem State.BootOk.advance (h : s.BootOk) (hr : s.RolesOk) (ho : (s.agent a).inflight = some o) :
    (s.advance a o).BootOk := by
  cases hb : s.booted with
  | true => exact h.advance_booted hr ho hb
  | false =>
    have hfit := hr a o ho
    cases o <;> simp [hb] at hfit <;> subst hfit
    case init f p => exact h.advance_init hb ho
    case enq f av payload r => exact h.advance_enq hb ho
    case deq f av m r => exact h.advance_deq hb ho
    case tinit p => exact h.advance_tinit hb ho

/-! ## The buffers -/

/-- A micro-step that makes `f` initialised leaves it in the empty state, with nothing in flight. -/
theorem State.Inv.reset_of_initialised (h : s.Inv) (ho : (s.agent a).inflight = some o) {f : Inst}
    (hf : s.initialised f = false) (ht : (s.advance a o).initialised f = true) :
    ((s.advance a o).buf f).IsReset ∧ ∀ d, ((s.advance a o).agent d).inflight = none := by
  rw [State.initialised_advance] at ht
  by_cases h4 : o = .tinit .t4
  · subst h4
    obtain ⟨rfl, hb⟩ := h.roles.booted_of_tinit ho
    have hdone := h.boot.2
    rw [show s.fg.inflight = _ from ho] at hdone
    obtain ⟨-, -, hin, hout, -⟩ := hdone
    refine ⟨?_, h.roles.idle_after_tinit ho⟩
    rw [State.buf_advance]
    cases f
    · exact hin
    · exact hout
  · by_cases hi : o = .init f .i4
    · subst hi
      obtain ⟨rfl, hb⟩ := Op.fits_of_initOn (h.roles a _ ho) (f := f) (p := .i4) (by simp [Op.initOn])
      have hprog := (h.boot.of_initOn ho (f := f) (p := .i4) (by simp [Op.initOn])).2
      refine ⟨?_, fun d => ?_⟩
      · simpa [microOp, microInit, InitPos.step] using isReset_of_initProgress hprog rfl
      · by_cases hd : d = .fg
        · rw [hd, State.inflight_advance_same]; rfl
        · rw [s.advance_other _ _ _ hd, h.roles.handler_idle hb hd]
    · rw [microOp_initialised o s f h4 hi, hf] at ht
      cases ht

/-- A micro-step of an agent keeps what holds of a buffer, whether or not it initialises it. -/
theorem State.Inv.instOk_advance (h : s.Inv) (ho : (s.agent a).inflight = some o) (f : Inst) :
    InstOk ((s.advance a o).initialised f) ((s.advance a o).buf f) ((s.advance a o).producing f)
      ((s.advance a o).consuming f) := by
  have hok := (h.instOk f).move (h.underWay ho f) (h.roles.instMove_advance ho f)
  refine ⟨hok.inRange, hok.storage, fun ht => ?_⟩
  cases hf : s.initialised f with
  | true => exact hok.ring hf
  | false =>
    obtain ⟨hreset, hidle⟩ := h.reset_of_initialised ho hf ht
    have hr' := h.roles.advance ho
    rw [hr'.producing_eq, hr'.consuming_eq, hidle, hidle]
    exact .of_isReset hreset

end

end Sys2Proof.Machine
end

section
/-! PROOF. One micro-step of an agent keeps full acceptance (41_transport_foreground.md R116,
42_transport_interrupt.md R132). -/

namespace Sys2Proof.Machine

/-! ## Full acceptance -/

theorem Roomy.of_free_le {b b' : Buffer} {payload : List Byte} {r : EnqRun} (h : Roomy b payload r)
    (hf : b.free ≤ b'.free) : Roomy b' payload r :=
  ⟨h.1.trans (Nat.add_le_add_right hf _), h.2⟩

/-- An `ENQ` that goes on has room for what it has not published yet: E3 takes from both. -/
theorem Roomy.enqStep {b : Buffer} {av : Bool} {payload : List Byte} {r r' : EnqRun} (h : Roomy b payload r)
    (hp : ProducerOk b (some (r, payload))) (hr : (r.step av payload b).2 = .inl r') :
    Roomy (r.step av payload b).1 payload r' := by
  obtain ⟨n, pos⟩ := r
  obtain ⟨hlen, hgo⟩ := h
  cases pos with
  | q0 => cases av <;> cases hr; exact ⟨hlen, by simp⟩
  | q1 =>
    cases hr
    have h0 : n = 0 := hp
    exact ⟨h0 ▸ hlen, by simp⟩
  | q2 =>
    cases hx : payload[n]? <;> simp only [EnqRun.step, hx, Sum.inl.injEq] at hr <;> subst hr <;>
      exact ⟨hlen, by simp⟩
  | e0 x =>
    by_cases hf : b.isFull = true <;> simp only [EnqRun.step, hf, if_true, Sum.inl.injEq] at hr <;> subst hr
    · have hlt : n < payload.length := (List.getElem?_eq_some_iff.mp hp).1
      have hfree : b.free = 0 := by simp [Buffer.free, b.isFull_iff.mp hf]
      have hle : payload.length ≤ b.free + n := hlen
      omega
    · exact ⟨hlen, by simp⟩
  | e1 x => cases hr; exact ⟨hlen, by simp⟩
  | e2 => cases hr; exact ⟨hlen, by simp⟩
  | e3 =>
    cases hr
    have hlt : b.count < b.cap := hp.1
    refine ⟨?_, by simp⟩
    have : payload.length ≤ b.cap - b.count + n := hlen
    show payload.length ≤ b.cap - (b.count + 1) + (n + 1)
    omega
  | e4 => cases hr; exact ⟨hlen, by simp⟩
  | q4 stopped =>
    cases stopped <;> cases hr
    exact ⟨hlen, by simp⟩
  | q5 => cases hr; exact ⟨hlen, by simp⟩
  | q6 => cases hr

theorem DeqRun.count_step_le (f : Inst) (av : Bool) (m : Nat) (r : DeqRun) (b : Buffer) :
    (r.step f av m b).1.count ≤ b.count := by
  rcases r.step_buffer_cases f av m b with he | ⟨x, -, he⟩ | ⟨x, -, he⟩ | ⟨x, -, he⟩ <;> simp [he]

/-- A consumer only makes room (40_buffer_ops.md R99). -/
theorem DeqRun.free_le_step (f : Inst) (av : Bool) (m : Nat) (r : DeqRun) (b : Buffer) :
    b.free ≤ (r.step f av m b).1.free := by
  simp only [Buffer.free, Buffer.cap, DeqRun.k_step]
  exact Nat.sub_le_sub_left (r.count_step_le f av m b) _

/-- Full acceptance along a move on one buffer. -/
theorem Roomy.move {f : Inst} {b b' : Buffer} {p p' : Option (EnqRun × List Byte)} {c c' : Option DeqRun}
    (h : ∀ r payload, p = some (r, payload) → Roomy b payload r) (hn : b.count ≤ b.cap) (hp : ProducerOk b p)
    (hmove : InstMove f none b b' p p' c c') {r' : EnqRun} {payload' : List Byte}
    (hp' : p' = some (r', payload')) : Roomy b' payload' r' := by
  cases hmove with
  | stays hb h1 _ => exact hb ▸ h _ _ (h1 ▸ hp')
  | inits q hi => cases hi
  | begins payload _ hroom hb h1 _ =>
    cases h1.symm.trans hp'
    exact ⟨hb ▸ hroom hn, by simp⟩
  | produces av r payload h0 hb h1 _ =>
    subst h0 hb
    cases hres : (r.step av payload b).2 with
    | inl q =>
      rw [hres] at h1
      cases h1.symm.trans hp'
      exact (h r _ rfl).enqStep hp hres
    | inr k => rw [hres] at h1; cases h1.symm.trans hp'
  | consumes av m r _ hb h1 _ => exact hb ▸ (h _ _ (h1 ▸ hp')).of_free_le (r.free_le_step f av m b)

/-- Full acceptance says the same of the producers of the two buffers of a transport. -/
theorem State.fullAcceptOk_iff {s : State} (hr : s.RolesOk) (hb : s.booted = true) :
    s.FullAcceptOk ↔ ∀ f r payload, s.producing f = some (r, payload) → Roomy (s.buf f) payload r := by
  constructor
  · intro ⟨hout, hin⟩ f r payload hp
    rw [hr.producing_eq] at hp
    obtain ⟨o, ho, hox⟩ := Option.bind_eq_some_iff.mp hp
    have hfit := hr _ o ho
    rcases Op.enqOn_eq_some hox with ⟨av, rfl⟩ | ⟨rfl, av, rfl⟩ | ⟨rfl, x, rfl, rfl⟩
    · simp [hb] at hfit
    · exact hout av payload r ho
    · rw [hb] at ho
      exact hin x r ho
  · intro h
    refine ⟨fun av payload r ho => h .outbound r payload ?_, fun x r ho => h .inbound r [x] ?_⟩
    · rw [hr.producing_eq]
      simp [producerOf, ho, Op.enqOn]
    · rw [hr.producing_eq, hb]
      simp [producerOf, ho, Op.enqOn]

/-- With nothing in flight on the two producers there is nothing to accept. -/
theorem State.FullAcceptOk.of_idle {s : State} (hf : s.fg.inflight = none) (hr : s.rxi.inflight = none) :
    s.FullAcceptOk := by
  refine ⟨fun av payload r ho => ?_, fun x r ho => ?_⟩
  · rw [hf] at ho; cases ho
  · rw [hr] at ho; cases ho

/-- Before `TINIT` has returned neither `WRITE` nor `RXIRQ` is in flight. -/
theorem State.FullAcceptOk.of_not_booted {s : State} (hr : s.RolesOk) (hb : s.booted = false) : s.FullAcceptOk := by
  refine ⟨fun av payload r ho => ?_, fun x r ho => ?_⟩
  · simpa [hb] using hr .fg _ ho
  · simpa [hb] using hr .rxi _ ho

section
variable {s : State} {a : Agent} {o : Op}

theorem State.RolesOk.initOn_none (h : s.RolesOk) (ho : (s.agent a).inflight = some o) (hb : s.booted = true)
    (f : Inst) : o.initOn f = none := by
  refine Option.eq_none_iff_forall_not_mem.mpr fun p hp => ?_
  have := (Op.fits_of_initOn (h a o ho) hp).2
  simp [hb] at this

theorem State.Inv.fullAccept_advance (h : s.Inv) (ho : (s.agent a).inflight = some o) :
    (s.advance a o).FullAcceptOk := by
  have hr' := h.roles.advance ho
  by_cases h4 : o = .tinit .t4
  · subst h4
    exact .of_idle (h.roles.idle_after_tinit ho .fg) (h.roles.idle_after_tinit ho .rxi)
  · have hb' : (s.advance a o).booted = s.booted := by rw [State.booted_advance, microOp_booted o s h4]
    cases hb : s.booted with
    | false => exact .of_not_booted hr' (hb'.trans hb)
    | true =>
      refine (State.fullAcceptOk_iff hr' (hb'.trans hb)).mpr fun f r' payload' hp' => ?_
      have hmove := h.roles.instMove_advance ho f
      rw [h.roles.initOn_none ho hb f] at hmove
      obtain ⟨-, -, hn⟩ := h.inRange f
      exact Roomy.move ((State.fullAcceptOk_iff h.roles hb).mp h.fullAccept f) hn
        (h.ring f (h.boot.initialised_of_booted hb f)).producer hmove hp'

end

end Sys2Proof.Machine
end

section
/-! PROOF. One micro-step of an agent keeps the outbound rule: with the transmit interrupt disabled and the
foreground outside the window of a `WRITE`, `OUT` is empty (42_transport_interrupt.md R137). -/

namespace Sys2Proof.Machine

/-! ## The batches of the two sides of `OUT` -/

/-- What an `ENQ` has published stays published (E3 to Q5). -/
theorem EnqRun.published_le_step {b : Buffer} {av : Bool} {payload : List Byte} {r r' : EnqRun}
    (hp : ProducerOk b (some (r, payload))) (hr : (r.step av payload b).2 = .inl r') :
    r.published ≤ r'.published := by
  obtain ⟨n, pos⟩ := r
  cases pos with
  | q0 => cases av <;> cases hr; exact le_rfl
  | q1 => cases hr; exact le_of_eq hp
  | q2 =>
    cases hx : payload[n]? <;> simp only [EnqRun.step, hx, Sum.inl.injEq] at hr <;> subst hr <;> exact le_rfl
  | e0 x =>
    by_cases hf : b.isFull = true <;> simp only [EnqRun.step, hf, if_true, Sum.inl.injEq] at hr <;> subst hr <;>
      exact le_rfl
  | e3 => cases hr; exact Nat.le_succ n
  | q4 stopped => cases stopped <;> cases hr; exact le_rfl
  | q6 => cases hr
  | _ => cases hr; exact le_rfl

/-- An `ENQ` that returns without having stopped has published its payload, or been given none (R86, R94). -/
theorem EnqRun.published_of_return {b : Buffer} {payload : List Byte} {r : EnqRun} {n : Nat}
    (hp : ProducerOk b (some (r, payload))) (hgo : r.pos ≠ .q4 true)
    (hr : (r.step true payload b).2 = .inr n) : r.published = payload.length := by
  obtain ⟨k, pos⟩ := r
  cases pos with
  | q4 stopped => cases stopped <;> cases hr; exact absurd rfl hgo
  | q6 => exact hp
  | q2 => cases hx : payload[k]? <;> simp [EnqRun.step, hx] at hr
  | _ => cases hr

/-- Only E3 changes the count, and from there on something is published. -/
theorem EnqRun.count_step (av : Bool) (payload : List Byte) (r : EnqRun) (b : Buffer) :
    (r.step av payload b).1.count = b.count ∨ ∃ r', (r.step av payload b).2 = .inl r' ∧ 0 < r'.published := by
  rcases r.step_buffer_cases av payload b with he | ⟨x, -, he⟩ | ⟨-, he⟩ | ⟨hpos, he⟩ | ⟨-, he⟩
  case inr.inr.inr.inl => exact .inr ⟨{ r with pos := .e4 }, by simp [EnqRun.step, hpos], Nat.succ_pos _⟩
  all_goals exact .inl (by simp [he])

/-- A `DEQ` stops only where D0 finds the buffer empty (R90). -/
theorem DeqRun.count_of_stops {f : Inst} {av : Bool} {m : Nat} {r r' : DeqRun} {b : Buffer}
    (hr : (r.step f av m b).2 = .inl r') (hpos : r'.pos = .p4 none) : (r.step f av m b).1.count = 0 := by
  obtain ⟨out, pos⟩ := r
  cases pos with
  | p0 => cases av <;> cases hr; cases hpos
  | p2 =>
    by_cases hm : out.length < m <;> simp only [DeqRun.step, hm, if_true, if_false, Sum.inl.injEq] at hr <;>
      subst hr <;> cases hpos
  | d0 =>
    by_cases he : b.isEmpty = true <;> simp only [DeqRun.step, he, if_true, Sum.inl.injEq] at hr <;> subst hr
    · exact b.isEmpty_iff.mp he
    · cases hpos
  | p4 q => cases q <;> cases hr; cases hpos
  | p7 => cases hr
  | _ => cases hr; cases hpos

/-- The one-byte `DEQ` of a handler goes on as one. -/
theorem singleByte_step {f : Inst} {r r' : DeqRun} {b : Buffer} (h : singleByte r)
    (hr : (r.step f true 1 b).2 = .inl r') : singleByte r' := by
  obtain ⟨out, pos⟩ := r
  cases pos with
  | p1 => cases hr; exact Nat.zero_le 1
  | p2 =>
    have hle : out.length ≤ 1 := h
    by_cases hm : out.length < 1 <;> simp only [DeqRun.step, hm, if_true, if_false, Sum.inl.injEq] at hr <;>
      subst hr
    · exact List.length_eq_zero_iff.mp (Nat.lt_one_iff.mp hm)
    · exact le_antisymm hle (Nat.le_of_not_lt hm)
  | d0 =>
    by_cases he : b.isEmpty = true <;> simp only [DeqRun.step, he, if_true, Sum.inl.injEq] at hr <;> subst hr <;>
      exact h
  | p4 q => cases q <;> cases hr; exact h
  | p5 x =>
    cases hr
    have h0 : out = [] := h
    simp [singleByte, h0]
  | p6 => cases hr; exact le_of_eq h
  | p7 => cases hr
  | _ => cases hr; exact h

/-- The one-byte `DEQ` returns nothing only where it has stopped (R134). -/
theorem singleByte_return {f : Inst} {r : DeqRun} {b : Buffer} (h : singleByte r)
    (hr : (r.step f true 1 b).2 = .inr []) : r.pos = .p4 none := by
  obtain ⟨out, pos⟩ := r
  cases pos with
  | p4 q => cases q <;> cases hr; rfl
  | p7 =>
    cases hr
    exact absurd h (by simp [singleByte])
  | p2 => by_cases hm : out.length < 1 <;> simp [DeqRun.step, hm] at hr
  | _ => cases hr

/-! ## The outbound rule -/

section
variable {s : State} {a : Agent} {o : Op}

/-- A move that leaves `OUT` no fuller, the enable and the transmit path as they are, and the foreground inside
the window if it was, keeps the outbound rule. -/
theorem State.OutboundOk.of_eq {t : State} (h : s.OutboundOk) (hb : t.booted = s.booted)
    (hn : t.outb.count ≤ s.outb.count) (hen : t.per.txIrqEn = s.per.txIrqEn) (htx : t.txi.inflight = s.txi.inflight)
    (hfg : inWriteWindow s.fg.inflight → inWriteWindow t.fg.inflight) : t.OutboundOk where
  idleEmpty hb' hw he :=
    Nat.le_zero.mp (hn.trans (h.idleEmpty (hb ▸ hb') (fun hw' => hw (hfg hw')) (hen ▸ he)).le)
  seenEmpty hs := Nat.le_zero.mp (hn.trans (h.seenEmpty (htx ▸ hs)).le)
  single r hr := h.single r (htx ▸ hr)

/-- With the transmit path idle the outbound rule is that of the disabled interrupt alone. -/
theorem State.OutboundOk.of_txi_idle (htx : s.txi.inflight = none)
    (hidle : s.booted = true → ¬ inWriteWindow s.fg.inflight → s.per.txIrqEn = false → s.outb.count = 0) :
    s.OutboundOk where
  idleEmpty := hidle
  seenEmpty hs := by rw [htx] at hs; exact hs.elim
  single r hr := by rw [htx] at hr; cases hr

theorem State.Inv.outbound_rxirq {p : RxPos} (h : s.Inv) (ho : s.rxi.inflight = some (.rxirq p)) :
    (s.advance .rxi (.rxirq p)).OutboundOk := by
  have hn : (s.advance .rxi (.rxirq p)).outb = s.outb := by
    have := s.buf_advance .rxi (.rxirq p) .outbound
    cases p <;> simpa [microOp, microRxirq] using this
  refine h.outbound.of_eq ?_ (by rw [hn]) ?_ (congrArg AgentState.inflight (s.advance_other .rxi .txi _ (by decide)))
    fun hw => ?_
  · rw [State.booted_advance, microOp_booted _ s (by simp)]
  · rw [State.per_advance]; cases p <;> simp [microOp, microRxirq]
  · have := s.advance_other .rxi .fg (.rxirq p) (by decide)
    exact (show (s.advance .rxi (.rxirq p)).fg = s.fg from this) ▸ hw

/-- A micro-step of the transmit path that clears the enable has seen `OUT` empty. -/
theorem State.OutboundOk.advance_txi {p : TxPos} (h : s.OutboundOk)
    (hn : (microOp (.txirq p) s).1.outb.count ≤ s.outb.count)
    (hen : (microOp (.txirq p) s).1.per.txIrqEn = s.per.txIrqEn ∨ (microOp (.txirq p) s).1.outb.count = 0)
    (hseen : sawOutEmpty (microOp (.txirq p) s).2.getLeft? → (microOp (.txirq p) s).1.outb.count = 0)
    (hsingle : ∀ r, (microOp (.txirq p) s).2.getLeft? = some (.txirq (.tx1 r)) → singleByte r) :
    (s.advance .txi (.txirq p)).OutboundOk := by
  have htx : (s.advance .txi (.txirq p)).txi.inflight = _ := s.inflight_advance_same .txi _
  have hfg : (s.advance .txi (.txirq p)).fg = s.fg := s.advance_other .txi .fg _ (by decide)
  have hout : (s.advance .txi (.txirq p)).outb = _ := s.buf_advance .txi (.txirq p) .outbound
  constructor
  · rw [State.booted_advance, microOp_booted _ s (by simp), hfg, State.per_advance, hout]
    intro hb hw he
    rcases hen with hen | hen
    · exact Nat.le_zero.mp (hn.trans (h.idleEmpty hb hw (hen ▸ he)).le)
    · exact hen
  · rw [htx, hout]; exact hseen
  · rw [htx]; exact hsingle

theorem State.OutboundOk.advance_txirq {p : TxPos} (h : s.OutboundOk) (ho : s.txi.inflight = some (.txirq p)) :
    (s.advance .txi (.txirq p)).OutboundOk := by
  have hseen := h.seenEmpty
  have hsingle := h.single
  rw [ho] at hseen hsingle
  cases p with
  | tx1 r =>
    have hsb := hsingle r rfl
    have hle := r.count_step_le .outbound true 1 s.outb
    cases hq : (r.step .outbound true 1 s.outb).2 with
    | inl r' =>
      refine h.advance_txi hle (.inl rfl) ?_ ?_ <;> simp only [microOp, microTxirq, hq, Sum.getLeft?_inl]
      · exact fun hs => DeqRun.count_of_stops hq hs
      · rintro _ ⟨⟩
        exact singleByte_step hsb hq
    | inr out =>
      refine h.advance_txi hle (.inl rfl) ?_ ?_ <;> simp only [microOp, microTxirq, hq, Sum.getLeft?_inl]
      · intro hs
        have hout : out = [] := hs
        have hpos := singleByte_return hsb (hout ▸ hq)
        exact Nat.le_zero.mp (hle.trans (hseen hpos).le)
      · rintro _ ⟨⟩
  | tx2 bytes =>
    cases bytes with
    | nil => exact h.advance_txi le_rfl (.inl rfl) (fun _ => hseen rfl) (by rintro _ ⟨⟩)
    | cons x rest => exact h.advance_txi le_rfl (.inl rfl) False.elim (by rintro _ ⟨⟩)
  | tx3 x => exact h.advance_txi le_rfl (.inl rfl) False.elim (by rintro _ ⟨⟩)
  | tx4 => exact h.advance_txi le_rfl (.inl rfl) False.elim (by rintro _ ⟨⟩)
  | tx5 => exact h.advance_txi le_rfl (.inr (hseen trivial)) False.elim (by rintro _ ⟨⟩)
  | tx6 => exact h.advance_txi le_rfl (.inl rfl) False.elim (by rintro _ ⟨⟩)

/-- While the foreground moves the transmit path is idle, so the rule is that of the disabled interrupt alone. -/
theorem State.Inv.outbound_advance_fg (h : s.Inv) (hm : s.mayMove .fg = true)
    (h4 : o ≠ .tinit .t4)
    (hidle : s.booted = true → ¬ inWriteWindow (microOp o s).2.getLeft? → (microOp o s).1.per.txIrqEn = false →
      (microOp o s).1.outb.count = 0) : (s.advance .fg o).OutboundOk := by
  have htx : (s.advance .fg o).txi.inflight = none := by
    rw [show (s.advance .fg o).txi = s.txi from s.advance_other .fg .txi o (by decide)]
    exact h.nesting.handler_idle (d := .txi) hm (by decide)
  have hfg : (s.advance .fg o).fg.inflight = _ := s.inflight_advance_same .fg o
  have hout : (s.advance .fg o).outb = _ := s.buf_advance .fg o .outbound
  refine .of_txi_idle htx ?_
  rw [State.booted_advance, microOp_booted o s h4, hfg, hout, State.per_advance]
  exact hidle

theorem State.Inv.outbound_write {av : Bool} {payload : List Byte} {p : WritePos} (h : s.Inv)
    (ho : s.fg.inflight = some (.write av payload p)) (hm : s.mayMove .fg = true) :
    (s.advance .fg (.write av payload p)).OutboundOk := by
  refine h.outbound_advance_fg hm (by simp) fun hb hw hen => ?_
  have hrule := fun hw' hen' => h.outbound.idleEmpty hb hw' hen'
  rw [ho] at hrule
  cases p with
  | w0 => exact hrule id hen
  | w1 => exact hrule id hen
  | w2 r =>
    have hroomy := h.fullAccept.1 av payload r ho
    have hprod : s.producing .outbound = some (r, payload) := by
      simp [State.producing, ho, Op.enqOn]
    have hpok := (h.ring .outbound (h.boot.initialised_of_booted hb _)).producer
    rw [hprod] at hpok
    have hnot : ¬ 0 < r.published := fun hpub => hw (by
      cases hq : (r.step true payload s.outb).2 with
      | inl r' =>
        have := hpub.trans_le (EnqRun.published_le_step hpok hq)
        simpa [microOp, microWrite, hq, inWriteWindow] using this
      | inr n =>
        have hlen := EnqRun.published_of_return hpok hroomy.2 hq
        have : payload ≠ [] := List.length_pos_iff.mp (hlen ▸ hpub)
        simpa [microOp, microWrite, hq, inWriteWindow] using this)
    have hcount : (r.step true payload s.outb).1.count = s.outb.count := by
      rcases r.count_step true payload s.outb with he | ⟨r', hq, hpub⟩
      · exact he
      · exact absurd (by simpa [microOp, microWrite, hq, inWriteWindow] using hpub) hw
    exact hcount.trans (hrule hnot hen)
  | w3 =>
    have hoff : s.per.txIrqEn = false := hen
    have hw' : ¬ payload ≠ [] := by
      simpa [microOp, microWrite, Peripheral.transmitActive, hoff, inWriteWindow] using hw
    exact hrule hw' hen
  | w4 => cases hen
  | w5 => exact hrule id hen

theorem State.Inv.outbound_read1 {p : ReadPos} (h : s.Inv) (ho : s.fg.inflight = some (.read1 p))
    (hm : s.mayMove .fg = true) : (s.advance .fg (.read1 p)).OutboundOk := by
  have hrule := h.outbound.idleEmpty
  rw [ho] at hrule
  refine h.outbound_advance_fg hm (by simp) fun hb _ hen => ?_
  cases p with
  | x2 bytes => cases bytes <;> exact hrule hb id hen
  | _ => exact hrule hb id hen

/-- `TINIT` returns with `OUT` in the empty state. -/
theorem State.Inv.outbound_tinit (h : s.Inv) (ho : (s.agent a).inflight = some (.tinit .t4)) :
    (s.advance a (.tinit .t4)).OutboundOk := by
  obtain ⟨rfl, -⟩ := h.roles.booted_of_tinit ho
  have hdone := h.boot.2
  rw [show s.fg.inflight = _ from ho] at hdone
  obtain ⟨-, -, -, ⟨-, -, hcount, -⟩, -⟩ := hdone
  refine .of_txi_idle (h.roles.idle_after_tinit ho .txi) fun _ _ _ => ?_
  have hout : (s.advance .fg (.tinit .t4)).outb = s.outb := s.buf_advance .fg (.tinit .t4) .outbound
  rw [hout, hcount]

/-- A micro-step of an agent keeps the outbound rule (R137). -/
theorem State.Inv.outbound_advance (h : s.Inv) (ho : (s.agent a).inflight = some o) (hm : s.mayMove a = true) :
    (s.advance a o).OutboundOk := by
  have hfit := h.roles a o ho
  cases hb : s.booted with
  | false =>
    by_cases h4 : o = .tinit .t4
    · subst h4
      exact h.outbound_tinit ho
    · obtain rfl : a = .fg := by
        by_contra hne
        simpa [hb] using Op.booted_of_fits hfit hne
      exact h.outbound_advance_fg hm h4 fun hb' => absurd (hb.symm.trans hb') (by decide)
  | true =>
    cases o <;> simp [hb] at hfit <;> subst hfit
    case write av payload p => exact h.outbound_write ho hm
    case read1 p => exact h.outbound_read1 ho hm
    case rxirq p => exact h.outbound_rxirq ho
    case txirq p => exact h.outbound.advance_txirq ho

/-! ## The whole invariant -/

/-- A micro-step of an agent keeps the invariant. -/
theorem State.Inv.advance (h : s.Inv) (ho : (s.agent a).inflight = some o) (hm : s.mayMove a = true) :
    (s.advance a o).Inv where
  inRange f := (h.instOk_advance ho f).inRange
  storage f := (h.instOk_advance ho f).storage
  roles := h.roles.advance ho
  nesting := h.nesting.advance ho hm
  boot := h.boot.advance h.roles ho
  ring f := (h.instOk_advance ho f).ring
  fullAccept := h.fullAccept_advance ho
  outbound := h.outbound_advance ho hm

theorem State.Inv.tick {t : State} (h : s.Inv) (ht : Machine.tick a s = .next t) : t.Inv := by
  obtain ⟨o, ho, hm, rfl⟩ := (tick_next_iff a s t).mp ht
  exact h.advance ho hm

end

end Sys2Proof.Machine
end

section
/-! PROOF. Whole operations on one buffer (40_buffer_ops.md R81, R86, R92): a batch is a run of the per-byte steps, so
it keeps what they keep, whatever the other side stands inside of. -/

namespace Sys2Proof.Machine

section
variable {v : Bool} {b : Buffer} {p : Option (EnqRun × List Byte)} {c : Option DeqRun}

/-- A whole `ENQ1`, E1 to E4, with the consumer anywhere. -/
theorem InstOk.enq1 (h : InstOk v b none c) (hfull : b.count ≠ b.cap) (x : Byte) :
    InstOk v (b.e1 x).e2.e3.e4 none c := by
  obtain ⟨⟨hw, hr, hn⟩, hs, hring⟩ := h
  have hroom : b.count < b.cap := lt_of_le_of_ne hn hfull
  refine ⟨⟨b.advance_lt _, hr, hroom⟩, (hs.e1 hw x).of_mem_eq rfl rfl, fun hv => ?_⟩
  have hready : RingOk b (some (⟨0, .e1 x⟩, [x])) c := (hring hv).with_producer rfl ⟨rfl, hroom⟩
  have hstored : RingOk (b.e1 x) (some (⟨0, .e2⟩, [x])) c := hready.e1 hw
  have hcounted : RingOk (b.e1 x).e2.e3 (some (⟨0, .e4⟩, [x])) c := (hstored.e2 hw).e3
  exact (hcounted.with_full _).with_producer rfl trivial

/-- A whole `DEQ1`, D1 to D4, with the producer anywhere. -/
theorem InstOk.deq1 (h : InstOk v b p none) (hempty : b.count ≠ 0) : InstOk v b.d2.d3.d4 p none := by
  obtain ⟨⟨hw, hr, hn⟩, hs, hring⟩ := h
  refine ⟨⟨hw, b.advance_lt _, (Nat.sub_le _ _).trans hn⟩, hs.of_mem_eq rfl rfl, fun hv => ?_⟩
  have hpos : 0 < b.count := Nat.pos_of_ne_zero hempty
  have hread := (hring hv).read_oldest .inbound hr rfl hpos
  have hready : RingOk b p (some ⟨[], .d2 (b.d1 .inbound)⟩) := (hring hv).with_consumer rfl ⟨hpos, hread⟩
  have htaken : RingOk b.d2.d3 p (some ⟨[], .d4 (b.d1 .inbound)⟩) := (hready.d2 hr).d3 (b.advance_lt _)
  exact (htaken.with_full _).with_consumer rfl trivial

theorem InstOk.enqueue (h : InstOk v b none c) (av : Bool) (payload : List Byte) :
    InstOk v (b.enqueue av payload).1 none c := by
  cases av with
  | false => exact h
  | true =>
    show InstOk v (b.enqLoop payload).1 none c
    induction payload generalizing b with
    | nil => exact h
    | cons x rest ih =>
      by_cases hf : b.count = b.cap
      · simpa [Buffer.enqLoop, Buffer.enq1, b.isFull_iff.mpr hf] using h
      · have hnf : b.isFull = false := Bool.eq_false_iff.mpr fun he => hf (b.isFull_iff.mp he)
        simpa [Buffer.enqLoop, Buffer.enq1, hnf] using ih (h.enq1 hf x)

theorem InstOk.dequeue (h : InstOk v b p none) (f : Inst) (av : Bool) (n : Nat) :
    InstOk v (b.dequeue f av n).1 p none := by
  cases av with
  | false => exact h
  | true =>
    show InstOk v (b.deqLoop f n).1 p none
    induction n generalizing b with
    | zero => exact h
    | succ n ih =>
      by_cases he : b.count = 0
      · simpa [Buffer.deqLoop, Buffer.deq1, b.isEmpty_iff.mpr he] using h
      · have hne : b.isEmpty = false := Bool.eq_false_iff.mpr fun h0 => he (b.isEmpty_iff.mp h0)
        simpa [Buffer.deqLoop, Buffer.deq1, hne] using ih (h.deq1 he)

theorem Buffer.isReset_init (b : Buffer) : b.init.IsReset := ⟨rfl, rfl, rfl, rfl⟩

theorem InstOk.init {w : Bool} (h : InstOk v b p c) : InstOk w b.init none none :=
  ⟨⟨b.cap_pos, b.cap_pos, Nat.zero_le _⟩, h.storage.of_mem_eq rfl rfl, fun _ => .of_isReset b.isReset_init⟩

end

theorem Buffer.count_dequeue_le (f : Inst) (b : Buffer) (av : Bool) (n : Nat) :
    (b.dequeue f av n).1.count ≤ b.count := by
  cases av with
  | false => exact le_rfl
  | true =>
    obtain ⟨-, -, -, -, hcount⟩ := b.deqLoop_registers f n
    exact hcount.trans_le (Nat.sub_le _ _)

theorem Buffer.free_le_dequeue (f : Inst) (b : Buffer) (av : Bool) (n : Nat) :
    b.free ≤ (b.dequeue f av n).1.free := by
  simp only [Buffer.free, Buffer.cap, Buffer.k_dequeue]
  exact Nat.sub_le_sub_left (b.count_dequeue_le f av n) _

/-! ## What a whole operation can do on one buffer -/

/-- How a whole operation issued in `s` leaves the buffer `f`. -/
inductive WholeMove (f : Inst) (s : State) (b' : Buffer) : Prop
  | stays (hb : b' = s.buf f)
  | inits (hb : b' = (s.buf f).init) (ha : s.issuer = .fg) (hboot : s.booted = false)
  | enqueues (av : Bool) (payload : List Byte) (hb : b' = ((s.buf f).enqueue av payload).1)
      (ha : s.issuer = producerOf f s.booted)
  | dequeues (av : Bool) (n : Nat) (hb : b' = ((s.buf f).dequeue f av n).1) (ha : s.issuer = consumerOf f s.booted)

theorem WholeMove.setBuf {f g : Inst} {s : State} {b : Buffer} (h : WholeMove g s b) :
    WholeMove f s ((s.setBuf g b).buf f) := by
  by_cases hf : f = g
  · subst hf; simpa using h
  · exact .stays (s.buf_setBuf_of_ne _ _ _ hf)

theorem State.enableTx_of_enabled {s : State} (h : s.per.txIrqEn = true) : s.enableTx = s := by
  unfold State.enableTx
  rw [← h]

/-- W3 skips W4 only where the enable is set already, so a `WRITE` always ends with it set (R114). -/
theorem State.writeOut_eq (s : State) (payload : List Byte) :
    s.writeOut payload = (s.setBuf .outbound (s.outb.enqueue true payload).1).enableTx := by
  simp only [State.writeOut]
  split
  case isTrue hen => exact (State.enableTx_of_enabled hen).symm
  case isFalse => rfl

/-- RX5 skips the `ENQ` only where it would accept nothing, so an `RXIRQ` without a line error always is one (R133). -/
theorem State.storeRx_eq (s : State) (x : Byte) :
    s.storeRx x = s.setBuf .inbound (s.inb.enqueue true [x]).1 := by
  unfold State.storeRx
  split
  case isTrue hfull => simp [Buffer.enqueue, Buffer.enqLoop, Buffer.enq1, hfull, State.setBuf]
  case isFalse => rfl

/-- Every whole operation leaves each buffer in one of these ways. -/
theorem exec_wholeMove {i : Instr} {s t : State} (h : exec i s = .next t) (f : Inst) :
    WholeMove f s (t.buf f) := by
  cases i <;> obtain ⟨hl, rfl⟩ := (State.whenLegal_next_iff _ _ _ _).mp h
  case init g =>
    obtain ⟨ha, hb, -⟩ := (legality_init_iff g s).mp hl
    simpa using WholeMove.setBuf (.inits rfl ha hb)
  case enq g av payload =>
    obtain ⟨ha, hb, -⟩ := (legality_enq_iff g av payload s).mp hl
    simpa using WholeMove.setBuf (.enqueues av payload rfl (by rw [ha, hb]; cases g <;> rfl))
  case deq g av m =>
    obtain ⟨ha, hb, -⟩ := (legality_deq_iff g av m s).mp hl
    simpa using WholeMove.setBuf (.dequeues av m rfl (by rw [ha, hb]; cases g <;> rfl))
  case empty g => exact .stays (by simp)
  case full g => exact .stays (by simp)
  case len g => exact .stays (by simp)
  case tinit =>
    obtain ⟨ha, hb, -⟩ := (legality_tinit_iff s).mp hl
    cases f <;> exact .inits (by simp) ha hb
  case write av payload =>
    obtain ⟨ha, hb, -⟩ := (legality_write_iff av payload s).mp hl
    split
    · split
      · simpa [State.writeOut_eq] using WholeMove.setBuf (g := .outbound) (.enqueues true payload rfl ha)
      · exact .stays (by simp)
    · exact .stays (by simp)
  case read1 =>
    obtain ⟨ha, hb, -⟩ := (legality_read1_iff s).mp hl
    simpa using WholeMove.setBuf (g := .inbound) (.dequeues true 1 rfl ha)
  case rxirq =>
    obtain ⟨ha, hb, -⟩ := (legality_rxirq_iff s).mp hl
    split
    · exact .stays (by simp)
    · have := WholeMove.setBuf (f := f) (g := .inbound) (.enqueues true [s.per.rxData] rfl (by rw [ha, hb]; rfl))
      cases f <;> simpa [State.storeRx_eq] using this
  case txirq =>
    obtain ⟨ha, hb, -⟩ := (legality_txirq_iff s).mp hl
    have := WholeMove.setBuf (f := f) (g := .outbound) (.dequeues true 1 rfl (by rw [ha, hb]; rfl))
    split <;> simpa using this

end Sys2Proof.Machine
end

section
/-! PROOF. Starting an operation, running it whole, and the moves of the peripheral keep the invariant
(20_memory.md R50 to R53, 60_exceptions.md R158, R160). -/

namespace Sys2Proof.Machine

/-! ## States that agree on what the invariant speaks of -/

theorem State.producing_congr {s t : State} (h : ∀ d, (t.agent d).inflight = (s.agent d).inflight) (f : Inst) :
    t.producing f = s.producing f := by
  have hfg : t.fg.inflight = s.fg.inflight := h .fg
  have hrx : t.rxi.inflight = s.rxi.inflight := h .rxi
  cases f <;> simp only [State.producing, hfg, hrx]

theorem State.consuming_congr {s t : State} (h : ∀ d, (t.agent d).inflight = (s.agent d).inflight) (f : Inst) :
    t.consuming f = s.consuming f := by
  have hfg : t.fg.inflight = s.fg.inflight := h .fg
  have htx : t.txi.inflight = s.txi.inflight := h .txi
  cases f <;> simp only [State.consuming, hfg, htx]

/-- The invariant does not speak of results, of the tape and the issuer, nor of the signals but the enable. -/
theorem State.Inv.congr {s t : State} (h : s.Inv) (hbuf : ∀ f, t.buf f = s.buf f)
    (hinf : ∀ d, (t.agent d).inflight = (s.agent d).inflight) (hact : t.active = s.active)
    (hboot : t.booted = s.booted) (hinit : ∀ f, t.initialised f = s.initialised f)
    (hen : t.per.txIrqEn = s.per.txIrqEn) : t.Inv where
  inRange f := hbuf f ▸ h.inRange f
  storage f := hbuf f ▸ h.storage f
  roles d o ho := hboot ▸ h.roles d o (hinf d ▸ ho)
  nesting := ⟨hact ▸ h.nesting.once, hact ▸ h.nesting.noForeground, fun d hd => by
    rw [hact, hinf]; exact h.nesting.exact d hd⟩
  boot := by
    have hin : t.inb = s.inb := hbuf .inbound
    have hout : t.outb = s.outb := hbuf .outbound
    have hinIn : t.initIn = s.initIn := hinit .inbound
    have hinOut : t.initOut = s.initOut := hinit .outbound
    have hfg : t.fg.inflight = s.fg.inflight := hinf .fg
    simpa only [State.BootOk, hboot, hfg, hin, hout, hinIn, hinOut, hbuf, hinit, hen] using h.boot
  ring f hf := by
    rw [hbuf, State.producing_congr hinf, State.consuming_congr hinf]
    exact h.ring f (hinit f ▸ hf)
  fullAccept := by
    have hfg : t.fg.inflight = s.fg.inflight := hinf .fg
    have hrx : t.rxi.inflight = s.rxi.inflight := hinf .rxi
    have hin : t.inb = s.inb := hbuf .inbound
    have hout : t.outb = s.outb := hbuf .outbound
    simpa only [State.FullAcceptOk, hfg, hrx, hin, hout] using h.fullAccept
  outbound := by
    have hout : t.outb = s.outb := hbuf .outbound
    have hfg : t.fg.inflight = s.fg.inflight := hinf .fg
    exact h.outbound.of_eq hboot (hout ▸ le_rfl) hen (hinf .txi) (hfg ▸ id)

/-! ## The foreground alone -/

/-- The invariant where no activation is in progress: it is about the foreground's record and the buffers. -/
theorem State.Inv.of_handlers_idle {t : State} (hrx : t.rxi.inflight = none) (htx : t.txi.inflight = none)
    (hact : t.active = []) (hfits : ∀ o, t.fg.inflight = some o → o.fits .fg t.booted = true) (hboot : t.BootOk)
    (hok : ∀ f, InstOk (t.initialised f) (t.buf f) (t.fg.inflight.bind (Op.enqOn f))
      (t.fg.inflight.bind (Op.deqOn f)))
    (hfull : ∀ av payload r, t.fg.inflight ≠ some (.write av payload (.w2 r)))
    (hout : t.booted = true → ¬ inWriteWindow t.fg.inflight → t.per.txIrqEn = false → t.outb.count = 0) :
    t.Inv where
  inRange f := (hok f).inRange
  storage f := (hok f).storage
  roles d o ho := by
    cases d with
    | fg => exact hfits o ho
    | rxi => exact absurd (hrx.symm.trans ho) (by simp)
    | txi => exact absurd (htx.symm.trans ho) (by simp)
  nesting := ⟨by simp [hact], by simp [hact], fun d hd => by cases d <;> simp_all⟩
  boot := hboot
  ring f hf := by
    have hring := (hok f).ring hf
    cases f <;> simpa [State.producing, State.consuming, hrx, htx] using hring
  fullAccept := ⟨fun av payload r ho => absurd ho (hfull av payload r), fun x r ho => by rw [hrx] at ho; cases ho⟩
  outbound := .of_txi_idle htx hout

/-- The invariant where nobody is part-way through anything. -/
theorem State.Inv.of_quiet {t : State} (hq : t.Quiet) (hboot : t.booted = true → t.initIn = true ∧ t.initOut = true)
    (hok : ∀ f, InstOk (t.initialised f) (t.buf f) none none)
    (hout : t.booted = true → t.per.txIrqEn = false → t.outb.count = 0) : t.Inv := by
  obtain ⟨hfg, hrx, htx, hact⟩ := hq
  refine .of_handlers_idle hrx htx hact (fun o ho => ?_) (.of_idle hboot hfg) ?_ (fun _ _ _ => ?_)
    fun hb _ => hout hb
  · rw [hfg] at ho; cases ho
  · rw [hfg]; exact hok
  · rw [hfg]; simp

/-- While the foreground may issue an operation, nobody is part-way through anything. -/
theorem State.NestingOk.quiet {s : State} (h : s.NestingOk) (hfg : s.fg.inflight = none) (hact : s.active = []) :
    s.Quiet := by
  have hidle : ∀ d, d ≠ .fg → (s.agent d).inflight = none := fun d hd => by
    simpa [hact] using h.exact d hd
  exact ⟨hfg, hidle .rxi (by decide), hidle .txi (by decide), hact⟩

theorem State.Quiet.inflight {s : State} (h : s.Quiet) (d : Agent) : (s.agent d).inflight = none := by
  obtain ⟨hfg, hrx, htx, -⟩ := h
  cases d
  · exact hfg
  · exact hrx
  · exact htx

theorem State.Quiet.producing {s : State} (h : s.Quiet) (f : Inst) : s.producing f = none := by
  obtain ⟨hfg, hrx, -, -⟩ := h
  cases f <;> simp [State.producing, hfg, hrx]

theorem State.Quiet.consuming {s : State} (h : s.Quiet) (f : Inst) : s.consuming f = none := by
  obtain ⟨hfg, -, htx, -⟩ := h
  cases f <;> simp [State.consuming, hfg, htx]

theorem State.Inv.outbound_quiet {s : State} (h : s.Inv) (hq : s.Quiet) (hb : s.booted = true)
    (hen : s.per.txIrqEn = false) : s.outb.count = 0 :=
  h.outbound.idleEmpty hb (by rw [hq.1]; exact id) hen

/-! ## The foreground's whole operations -/

theorem InstOk.whole {f : Inst} {s : State} {b' : Buffer} {v : Bool} (hmove : WholeMove f s b')
    (h : InstOk v (s.buf f) (s.producing f) (s.consuming f))
    (hp : s.issuer = producerOf f s.booted → s.producing f = none)
    (hc : s.issuer = consumerOf f s.booted → s.consuming f = none) :
    InstOk v b' (s.producing f) (s.consuming f) := by
  cases hmove with
  | stays hb => rw [hb]; exact h
  | inits hb ha hboot =>
    rw [hb, hp (by rw [ha, hboot]; cases f <;> rfl), hc (by rw [ha, hboot]; cases f <;> rfl)]
    exact h.init
  | enqueues av payload hb ha =>
    rw [hp ha] at h ⊢
    exact hb ▸ h.enqueue av payload
  | dequeues av n hb ha =>
    rw [hc ha] at h ⊢
    exact hb ▸ h.dequeue f av n

section
variable {s t : State}

theorem State.Inv.instOk_exec (h : s.Inv) {i : Instr} (hex : exec i s = .next t)
    (hidle : (s.agent s.issuer).inflight = none) (f : Inst) :
    InstOk (s.initialised f) (t.buf f) (s.producing f) (s.consuming f) := by
  refine .whole (exec_wholeMove hex f) (h.instOk f) (fun ha => ?_) fun ha => ?_
  · rw [h.roles.producing_eq, ← ha, hidle]; rfl
  · rw [h.roles.consuming_eq, ← ha, hidle]; rfl

/-- A whole operation of the foreground that returns: nobody is part-way before and after. -/
theorem State.Inv.exec_fg (h : s.Inv) {i : Instr} (hex : exec i s = .next t) (ha : s.issuer = .fg)
    (hq : s.Quiet) (hfg : t.fg.inflight = none)
    (hboot : t.booted = true → t.initIn = true ∧ t.initOut = true)
    (hinit : ∀ f, t.initialised f = s.initialised f ∨ (t.buf f).IsReset)
    (hout : t.booted = true → t.per.txIrqEn = false → t.outb.count = 0) : t.Inv := by
  obtain ⟨-, hact, -, -, hothers⟩ := exec_next_frame i s t hex
  have hrx : t.rxi = s.rxi := hothers .rxi (by rw [ha]; decide)
  have htx : t.txi = s.txi := hothers .txi (by rw [ha]; decide)
  obtain ⟨-, hrx0, htx0, hact0⟩ := id hq
  have hqt : t.Quiet := ⟨hfg, hrx ▸ hrx0, htx ▸ htx0, hact.trans hact0⟩
  refine .of_quiet hqt hboot (fun f => ?_) hout
  have hok := h.instOk_exec hex (hq.inflight _) f
  rw [hq.producing, hq.consuming] at hok
  rcases hinit f with he | he
  · exact he ▸ hok
  · exact ⟨hok.inRange, hok.storage, fun _ => .of_isReset he⟩

theorem State.Inv.exec_init (h : s.Inv) {f : Inst} (hex : exec (.init f) s = .next t) : t.Inv := by
  obtain ⟨hl, rfl⟩ := (State.whenLegal_next_iff _ _ _ _).mp hex
  obtain ⟨ha, hb, hfg, hact⟩ := (legality_init_iff f s).mp hl
  refine h.exec_fg hex ha (h.nesting.quiet hfg hact) (by simp [ha]) (by simp [hb]) (fun g => ?_) (by simp [hb])
  by_cases hg : g = f
  · subst hg; exact .inr (by simpa using (s.buf g).isReset_init)
  · exact .inl (by simp [State.initialised_setInitialised_of_ne _ _ _ _ hg])

theorem State.Inv.exec_enq (h : s.Inv) {f : Inst} {av : Bool} {payload : List Byte}
    (hex : exec (.enq f av payload) s = .next t) : t.Inv := by
  obtain ⟨hl, rfl⟩ := (State.whenLegal_next_iff _ _ _ _).mp hex
  obtain ⟨ha, hb, -, hfg, hact⟩ := (legality_enq_iff f av payload s).mp hl
  exact h.exec_fg hex ha (h.nesting.quiet hfg hact) (by simp [ha]) (by simp [hb]) (fun g => .inl (by simp))
    (by simp [hb])

theorem State.Inv.exec_deq (h : s.Inv) {f : Inst} {av : Bool} {m : Nat}
    (hex : exec (.deq f av m) s = .next t) : t.Inv := by
  obtain ⟨hl, rfl⟩ := (State.whenLegal_next_iff _ _ _ _).mp hex
  obtain ⟨ha, hb, -, hfg, hact⟩ := (legality_deq_iff f av m s).mp hl
  exact h.exec_fg hex ha (h.nesting.quiet hfg hact) (by simp [ha]) (by simp [hb]) (fun g => .inl (by simp))
    (by simp [hb])

theorem State.Inv.exec_tinit (h : s.Inv) (hex : exec .tinit s = .next t) : t.Inv := by
  obtain ⟨hl, rfl⟩ := (State.whenLegal_next_iff _ _ _ _).mp hex
  obtain ⟨ha, hb, hfg, hact⟩ := (legality_tinit_iff s).mp hl
  refine h.exec_fg hex ha (h.nesting.quiet hfg hact) (by simp [ha]) (by simp) (fun g => .inr ?_)
    (fun _ _ => by simp [Buffer.init_eq])
  cases g <;> simpa using Buffer.isReset_init _

theorem State.Inv.exec_read1 (h : s.Inv) (hex : exec .read1 s = .next t) : t.Inv := by
  obtain ⟨hl, rfl⟩ := (State.whenLegal_next_iff _ _ _ _).mp hex
  obtain ⟨ha, hb, hfg, hact⟩ := (legality_read1_iff s).mp hl
  have hq := h.nesting.quiet hfg hact
  refine h.exec_fg hex ha hq (by simp [ha]) (fun _ => by simpa using h.boot.1 hb) (fun g => .inl (by simp))
    fun _ hen => ?_
  exact (congrArg Buffer.count (by simp)).trans (h.outbound_quiet hq hb (by simpa using hen))

end

/-! ## Starting an operation -/

/-- An operation that stands where it relies on nothing yet: before its first access of a buffer. -/
structure Op.Fresh (o : Op) : Prop where
  producer : ∀ f b, prodLag (o.enqOn f) = 0 ∧ ProducerOk b (o.enqOn f)
  consumer : ∀ f b, consLag (o.deqOn f) = 0 ∧ ConsumerOk b (o.deqOn f)
  notW2 : ∀ av payload r, o ≠ .write av payload (.w2 r)
  notRx6 : ∀ x r, o ≠ .rxirq (.rx6 x r)
  notSeen : ¬ sawOutEmpty (some o)
  single : ∀ r, o = .txirq (.tx1 r) → singleByte r

/-- An operation inside no batch relies on nothing. -/
theorem Op.Fresh.of_no_batch {o : Op} (hp : ∀ f, o.enqOn f = none) (hc : ∀ f, o.deqOn f = none)
    (hs : ¬ sawOutEmpty (some o)) : o.Fresh where
  producer f b := by rw [hp]; exact ⟨rfl, trivial⟩
  consumer f b := by rw [hc]; exact ⟨rfl, trivial⟩
  notW2 av payload r he := by simpa [he, Op.enqOn] using hp .outbound
  notRx6 x r he := by simpa [he, Op.enqOn] using hp .inbound
  notSeen := hs
  single r he := by simpa [he, Op.deqOn] using hc .outbound

theorem fresh_write_w1 (av : Bool) (payload : List Byte) : (Op.write av payload .w1).Fresh :=
  .of_no_batch (fun _ => rfl) (fun _ => rfl) id

/-- Every operation starts fresh: an `ENQ` before Q0, a `DEQ` before P0 (10_state.md R29). -/
theorem fresh_of_opOf {i : Instr} {o : Op} (h : opOf i = some o) : o.Fresh := by
  cases i <;> cases h
  case init f => exact .of_no_batch (fun _ => rfl) (fun _ => rfl) id
  case enq f av payload =>
    refine ⟨fun g b => ?_, fun g b => ⟨rfl, trivial⟩, by simp, by simp, id, by simp⟩
    by_cases hg : f = g <;> simp [Op.enqOn, hg, prodLag, enqLag, ProducerOk]
  case deq f av m =>
    refine ⟨fun g b => ⟨rfl, trivial⟩, fun g b => ?_, by simp, by simp, id, by simp⟩
    by_cases hg : f = g <;> simp [Op.deqOn, hg, consLag, deqLag, ConsumerOk]
  case tinit => exact .of_no_batch (fun _ => rfl) (fun _ => rfl) id
  case write av payload => exact .of_no_batch (fun _ => rfl) (fun _ => rfl) id
  case read1 =>
    refine ⟨fun g b => ⟨rfl, trivial⟩, fun g b => ?_, by simp, by simp, id, by simp⟩
    cases g <;> exact ⟨rfl, trivial⟩
  case rxirq => exact .of_no_batch (fun _ => rfl) (fun _ => rfl) id
  case txirq =>
    refine ⟨fun g b => ⟨rfl, trivial⟩, fun g b => ?_, by simp, by simp, by simp [sawOutEmpty], ?_⟩
    · cases g <;> exact ⟨rfl, trivial⟩
    · intro r he
      cases he
      rfl

section
variable {s : State} {i : Instr} {o : Op}

@[simp] theorem State.booted_unready (s : State) (i : Instr) : (s.unready i).booted = s.booted := by
  cases i <;> simp [State.unready]

@[simp] theorem State.per_unready (s : State) (i : Instr) : (s.unready i).per = s.per := by
  cases i <;> simp [State.unready]

@[simp] theorem State.active_unready (s : State) (i : Instr) : (s.unready i).active = s.active := by
  cases i <;> simp [State.unready]

@[simp] theorem State.agent_unready (s : State) (i : Instr) (d : Agent) : (s.unready i).agent d = s.agent d := by
  cases i <;> simp [State.unready]

/-- Starting an operation makes no buffer initialised (log 12). -/
theorem State.initialised_of_unready {f : Inst} (h : (s.unready i).initialised f = true) : s.initialised f = true := by
  cases i with
  | init g =>
    by_cases hf : f = g
    · subst hf; simp [State.unready] at h
    · simpa [State.unready, State.initialised_setInitialised_of_ne _ _ _ _ hf] using h
  | tinit => cases f <;> simp [State.unready] at h
  | _ => exact h

theorem State.booted_launch (s : State) (i : Instr) (o : Op) : (s.launch i o).booted = s.booted := by
  simp [State.launch]

theorem State.per_launch (s : State) (i : Instr) (o : Op) : (s.launch i o).per = s.per := by
  simp [State.launch]

theorem State.initialised_launch (s : State) (i : Instr) (o : Op) (f : Inst) :
    (s.launch i o).initialised f = (s.unready i).initialised f := by
  simp [State.launch]

theorem State.inflight_launch_same (s : State) (i : Instr) (o : Op) :
    ((s.launch i o).agent s.issuer).inflight = some o := by
  simp [State.launch]

theorem State.agent_launch_of_ne (s : State) (i : Instr) (o : Op) {d : Agent} (h : d ≠ s.issuer) :
    (s.launch i o).agent d = s.agent d := by
  simp [State.launch, State.agent_setAgent_of_ne _ _ _ _ h]

theorem State.RolesOk.launch (h : s.RolesOk) (hfits : o.fits s.issuer s.booted = true) :
    (s.launch i o).RolesOk := by
  intro d o' hd
  rw [State.booted_launch]
  by_cases ha : d = s.issuer
  · subst ha
    rw [State.inflight_launch_same] at hd
    cases hd
    exact hfits
  · rw [State.agent_launch_of_ne _ _ _ ha] at hd
    exact h d o' hd

theorem State.NestingOk.launch (h : s.NestingOk) (hidle : (s.agent s.issuer).inflight = none) :
    (s.launch i o).NestingOk := by
  by_cases hfg : s.issuer = .fg
  · have hactive : (s.launch i o).active = s.active := by simp [State.launch, hfg]
    refine ⟨hactive ▸ h.once, hactive ▸ h.noForeground, fun d hd => ?_⟩
    rw [hactive, h.exact d hd, State.agent_launch_of_ne _ _ _ (hfg ▸ hd)]
  · have hactive : (s.launch i o).active = s.issuer :: s.active := by
      cases ha : s.issuer <;> simp_all [State.launch]
    have hnotin : s.issuer ∉ s.active := fun hmem => by
      simpa [hidle] using (h.exact _ hfg).mp hmem
    refine ⟨hactive ▸ List.nodup_cons.mpr ⟨hnotin, h.once⟩, ?_, fun d hd => ?_⟩
    · simpa [hactive, Ne.symm hfg] using h.noForeground
    · rw [hactive]
      by_cases ha : d = s.issuer
      · subst ha; simp [State.inflight_launch_same]
      · rw [State.agent_launch_of_ne _ _ _ ha, ← h.exact d hd]
        simp [ha]

/-- Starting an operation changes what one agent is inside of, from nothing. -/
theorem State.view_launch {α : Type} {view : Op → Option α} {side : Bool → Agent}
    (hidle : (s.agent s.issuer).inflight = none) :
    ((s.agent (side s.booted)).inflight.bind view = none ∧
      ((s.launch i o).agent (side (s.launch i o).booted)).inflight.bind view = view o) ∨
    ((s.launch i o).agent (side (s.launch i o).booted)).inflight.bind view =
      (s.agent (side s.booted)).inflight.bind view := by
  rw [State.booted_launch]
  by_cases ha : side s.booted = s.issuer
  · rw [ha, hidle, State.inflight_launch_same]
    exact .inl ⟨rfl, rfl⟩
  · rw [State.agent_launch_of_ne _ _ _ ha]
    exact .inr rfl

/-- An operation may start with the buffers as they are: it relies on nothing of them yet. -/
theorem State.Inv.launch (h : s.Inv) (hfresh : o.Fresh) (hidle : (s.agent s.issuer).inflight = none)
    (hfits : o.fits s.issuer s.booted = true) (hboot : (s.launch i o).BootOk) : (s.launch i o).Inv := by
  have hr := h.roles.launch (i := i) hfits
  have hout : (s.launch i o).outb = s.outb := s.buf_launch i o .outbound
  have hin : (s.launch i o).inb = s.inb := s.buf_launch i o .inbound
  have hinf : ∀ d o', ((s.launch i o).agent d).inflight = some o' → o' = o ∨ (s.agent d).inflight = some o' :=
    fun d o' hd => by
      by_cases ha : d = s.issuer
      · subst ha
        rw [State.inflight_launch_same] at hd
        exact .inl (Option.some.inj hd).symm
      · rw [State.agent_launch_of_ne _ _ _ ha] at hd
        exact .inr hd
  have hfg : inWriteWindow s.fg.inflight → inWriteWindow (s.launch i o).fg.inflight := fun hw => by
    by_cases ha : s.issuer = .fg
    · rw [show s.fg.inflight = none by simpa [ha] using hidle] at hw
      exact hw.elim
    · rwa [show (s.launch i o).fg = s.fg from State.agent_launch_of_ne _ _ _ (Ne.symm ha)]
  refine ⟨fun f => ?_, fun f => ?_, hr, h.nesting.launch hidle, hboot, fun f hf => ?_,
    ⟨fun av payload r ho => ?_, fun x r ho => ?_⟩, ⟨?_, fun hseen => ?_, fun r ho => ?_⟩⟩
  · rw [State.buf_launch]; exact h.inRange f
  · rw [State.buf_launch]; exact h.storage f
  · rw [State.initialised_launch] at hf
    have hring := h.ring f (State.initialised_of_unready hf)
    rw [h.roles.producing_eq, h.roles.consuming_eq] at hring
    rw [State.buf_launch, hr.producing_eq, hr.consuming_eq]
    obtain ⟨hplag, hpok⟩ := hfresh.producer f (s.buf f)
    obtain ⟨hclag, hcok⟩ := hfresh.consumer f (s.buf f)
    have hside : RingOk (s.buf f)
        (((s.launch i o).agent (producerOf f (s.launch i o).booted)).inflight.bind (Op.enqOn f))
        ((s.agent (consumerOf f s.booted)).inflight.bind (Op.deqOn f)) := by
      rcases State.view_launch (i := i) (o := o) (view := Op.enqOn f) (side := producerOf f) hidle with
        ⟨hn, he⟩ | he
      · rw [he]; exact hring.with_producer (by rw [hplag, hn]; rfl) hpok
      · rw [he]; exact hring
    rcases State.view_launch (i := i) (o := o) (view := Op.deqOn f) (side := consumerOf f) hidle with
      ⟨hn, he⟩ | he
    · rw [he]; exact hside.with_consumer (by rw [hclag, hn]; rfl) hcok
    · rw [he]; exact hside
  · rcases hinf .fg _ ho with he | hs
    · exact absurd he.symm (hfresh.notW2 av payload r)
    · rw [hout]; exact h.fullAccept.1 av payload r hs
  · rcases hinf .rxi _ ho with he | hs
    · exact absurd he.symm (hfresh.notRx6 x r)
    · rw [hin]; exact h.fullAccept.2 x r hs
  · rw [State.booted_launch, State.per_launch, hout]
    exact fun hb hw => h.outbound.idleEmpty hb fun hw' => hw (hfg hw')
  · cases ht : (s.launch i o).txi.inflight with
    | none => rw [ht] at hseen; exact hseen.elim
    | some o' =>
      rw [ht] at hseen
      rcases hinf .txi _ ht with rfl | hs
      · exact absurd hseen hfresh.notSeen
      · rw [hout]; exact h.outbound.seenEmpty ((show s.txi.inflight = some o' from hs) ▸ hseen)
  · rcases hinf .txi _ ho with he | hs
    · exact hfresh.single r he.symm
    · exact h.outbound.single r hs

/-- Who may start an operation has nothing in flight and may be inside it (30_encoding.md R68). -/
theorem fits_of_legality (hl : legality i s = none) (ho : opOf i = some o) :
    o.fits s.issuer s.booted = true ∧ (s.agent s.issuer).inflight = none := by
  cases i <;> cases ho
  case init f =>
    obtain ⟨ha, hb, hidle, -⟩ := (legality_init_iff _ s).mp hl
    exact ⟨by simp [ha, hb], by rw [ha]; exact hidle⟩
  case enq f av payload =>
    obtain ⟨ha, hb, -, hidle, -⟩ := (legality_enq_iff _ _ _ s).mp hl
    exact ⟨by simp [ha, hb], by rw [ha]; exact hidle⟩
  case deq f av m =>
    obtain ⟨ha, hb, -, hidle, -⟩ := (legality_deq_iff _ _ _ s).mp hl
    exact ⟨by simp [ha, hb], by rw [ha]; exact hidle⟩
  case tinit =>
    obtain ⟨ha, hb, hidle, -⟩ := (legality_tinit_iff s).mp hl
    exact ⟨by simp [ha, hb], by rw [ha]; exact hidle⟩
  case write av payload =>
    obtain ⟨ha, hb, hidle, -⟩ := (legality_write_iff _ _ s).mp hl
    exact ⟨by simp [ha, hb], by rw [ha]; exact hidle⟩
  case read1 =>
    obtain ⟨ha, hb, hidle, -⟩ := (legality_read1_iff s).mp hl
    exact ⟨by simp [ha, hb], by rw [ha]; exact hidle⟩
  case rxirq =>
    obtain ⟨ha, hb, hidle, -⟩ := (legality_rxirq_iff s).mp hl
    exact ⟨by simp [ha, hb], by rw [ha]; exact hidle⟩
  case txirq =>
    obtain ⟨ha, hb, hidle, -⟩ := (legality_txirq_iff s).mp hl
    exact ⟨by simp [ha, hb], by rw [ha]; exact hidle⟩

theorem State.BootOk.launch_booted (h : s.BootOk) (hr : s.RolesOk) (hb : s.booted = true)
    (hfits : o.fits s.issuer s.booted = true) (hun : s.unready i = s) : (s.launch i o).BootOk := by
  obtain ⟨hin, hout⟩ := h.1 hb
  refine .of_booted (hr.launch hfits) (by rw [State.booted_launch, hb]) ?_ ?_
  · simpa [State.launch, hun] using hin
  · simpa [State.launch, hun] using hout

/-- What starting an operation says of initialisation: an `INIT` or `TINIT` has nothing done and its buffers
unready; an `ENQ` or `DEQ` is on an initialised buffer (log 12). -/
theorem State.BootOk.launch (h : s.BootOk) (hr : s.RolesOk) (hl : legality i s = none) (ho : opOf i = some o) :
    (s.launch i o).BootOk := by
  have hfits := (fits_of_legality hl ho).1
  cases i <;> cases ho
  case init f =>
    obtain ⟨ha, hb, -⟩ := (legality_init_iff _ s).mp hl
    simp [State.BootOk, State.launch, State.unready, ha, hb, initProgress]
  case enq f av payload =>
    obtain ⟨ha, hb, hi, -⟩ := (legality_enq_iff _ _ _ s).mp hl
    simp [State.BootOk, State.launch, State.unready, ha, hb, hi]
  case deq f av m =>
    obtain ⟨ha, hb, hi, -⟩ := (legality_deq_iff _ _ _ s).mp hl
    simp [State.BootOk, State.launch, State.unready, ha, hb, hi]
  case tinit =>
    obtain ⟨ha, hb, -⟩ := (legality_tinit_iff s).mp hl
    simp [State.BootOk, State.launch, State.unready, ha, hb, initProgress]
  all_goals
    obtain ⟨-, hb⟩ : _ ∧ s.booted = true := by simpa using hfits
    exact h.launch_booted hr hb hfits rfl

end

/-! ## The other whole operations -/

section
variable {s t : State}

/-- An observer changes nothing but the result (40_buffer_ops.md R98). -/
theorem State.Inv.report (h : s.Inv) (a : Agent) (r : Result) : (s.report a r).Inv := by
  refine h.congr (by simp) (fun d => ?_) (by simp) (by simp) (by simp) (by simp)
  by_cases hd : d = a
  · subst hd; simp
  · simp [State.agent_setAgent_of_ne _ _ _ _ hd]

theorem State.Inv.exec_write (h : s.Inv) {av : Bool} {payload : List Byte}
    (hex : exec (.write av payload) s = .next t) : t.Inv := by
  obtain ⟨hl, ht⟩ := (State.whenLegal_next_iff _ _ _ _).mp hex
  obtain ⟨ha, hb, hfg, hact⟩ := (legality_write_iff _ _ s).mp hl
  have hq := h.nesting.quiet hfg hact
  have hinit := h.boot.1 hb
  split at ht
  · rename_i hav
    subst hav
    split at ht
    · subst ht
      exact h.exec_fg hex ha hq (by simp [ha]) (fun _ => by simpa [State.writeOut_eq] using hinit)
        (fun g => .inl (by simp [State.writeOut_eq])) fun _ hen => by simp [State.writeOut_eq] at hen
    · subst ht
      have hw1 := h.launch (i := .write true payload) (fresh_write_w1 true payload) (hq.inflight _) (by simp [ha, hb])
        (h.boot.launch_booted h.roles hb (by simp [ha, hb]) rfl)
      simpa [State.launch, State.unready, ha] using hw1
  · subst ht
    exact h.exec_fg hex ha hq (by simp [ha]) (fun _ => by simpa using hinit) (fun g => .inl (by simp))
      fun _ hen => by simpa using h.outbound_quiet hq hb (by simpa using hen)

/-- A whole activation leaves roles, nesting and initialisation as they are, and full acceptance too: its own batch
is over, and it only makes room for the other side's. -/
theorem State.Inv.exec_handler (h : s.Inv) {i : Instr} (hex : exec i s = .next t) (hb : s.booted = true)
    (hidle : (s.agent s.issuer).inflight = none) (hidle' : (t.agent s.issuer).inflight = none)
    (hboot : t.booted = s.booted) (hinit : ∀ f, t.initialised f = s.initialised f) (hout : t.OutboundOk) : t.Inv := by
  obtain ⟨-, hact, -, -, hothers⟩ := exec_next_frame i s t hex
  have hinf : ∀ d, (t.agent d).inflight = (s.agent d).inflight := fun d => by
    by_cases hd : d = s.issuer
    · rw [hd, hidle, hidle']
    · rw [hothers d hd]
  have hr : t.RolesOk := fun d o ho => hboot ▸ h.roles d o (hinf d ▸ ho)
  have hbt : t.booted = true := hboot.trans hb
  have hinitd := fun f => (hinit f).trans (h.boot.initialised_of_booted hb f)
  have hok := fun f => h.instOk_exec hex hidle f
  have hnest : t.NestingOk := ⟨hact ▸ h.nesting.once, hact ▸ h.nesting.noForeground, fun d hd => by
    rw [hact, hinf]; exact h.nesting.exact d hd⟩
  refine ⟨fun f => (hok f).inRange, fun f => (hok f).storage, hr, hnest,
    .of_booted hr hbt (hinitd .inbound) (hinitd .outbound), fun f hf => ?_,
    (State.fullAcceptOk_iff hr hbt).mpr fun f r payload hp => ?_, hout⟩
  · rw [State.producing_congr hinf, State.consuming_congr hinf]
    exact (hok f).ring (hinit f ▸ hf)
  · rw [State.producing_congr hinf] at hp
    have hroomy := (State.fullAcceptOk_iff h.roles hb).mp h.fullAccept f r payload hp
    have hbusy : s.issuer ≠ producerOf f s.booted := fun ha => by
      rw [h.roles.producing_eq, ← ha, hidle] at hp
      cases hp
    cases exec_wholeMove hex f with
    | stays he => exact he ▸ hroomy
    | inits _ _ hb' => exact absurd (hb.symm.trans hb') (by decide)
    | enqueues _ _ _ ha => exact absurd ha hbusy
    | dequeues av n he _ => exact he ▸ hroomy.of_free_le (Buffer.free_le_dequeue f _ av n)

theorem State.Inv.exec_rxirq (h : s.Inv) (hex : exec .rxirq s = .next t) : t.Inv := by
  obtain ⟨hl, ht⟩ := (State.whenLegal_next_iff _ _ _ _).mp hex
  obtain ⟨ha, hb, hidle, -⟩ := (legality_rxirq_iff s).mp hl
  have hidle' : (s.agent s.issuer).inflight = none := by simpa [ha] using hidle
  split at ht <;> subst ht
  · exact h.exec_handler hex hb hidle' (by simp) (by simp) (by simp)
      (h.outbound.of_eq (by simp) (by simp) (by simp) (by simp [ha]) (by simp [ha]))
  · exact h.exec_handler hex hb hidle' (by simp) (by simp [State.storeRx_eq]) (by simp [State.storeRx_eq])
      (h.outbound.of_eq (by simp [State.storeRx_eq]) (by simp [State.storeRx_eq]) (by simp [State.storeRx_eq])
        (by simp [ha, State.storeRx_eq]) (by simp [ha, State.storeRx_eq]))

theorem State.Inv.exec_txirq (h : s.Inv) (hex : exec .txirq s = .next t) : t.Inv := by
  obtain ⟨hl, ht⟩ := (State.whenLegal_next_iff _ _ _ _).mp hex
  obtain ⟨ha, hb, hidle, -, hen⟩ := (legality_txirq_iff s).mp hl
  have hidle' : (s.agent s.issuer).inflight = none := by simpa [ha] using hidle
  split at ht <;> subst ht
  · exact h.exec_handler hex hb hidle' (by simp) (by simp) (by simp)
      (.of_txi_idle (by simp [ha]) (by simp [hen]))
  · rename_i hnil
    refine h.exec_handler hex hb hidle' (by simp) (by simp) (by simp) (.of_txi_idle (by simp [ha]) fun _ _ _ => ?_)
    rcases s.outb.deqLoop_one .outbound with ⟨hn, he⟩ | ⟨-, he⟩
    · simpa [Buffer.dequeue, he] using hn
    · simp [Buffer.dequeue, he] at hnil

/-- Every whole operation keeps the invariant. -/
theorem State.Inv.exec (h : s.Inv) {i : Instr} (hex : Machine.exec i s = .next t) : t.Inv := by
  cases i with
  | init f => exact h.exec_init hex
  | enq f av payload => exact h.exec_enq hex
  | deq f av m => exact h.exec_deq hex
  | empty f => obtain ⟨-, rfl⟩ := (State.whenLegal_next_iff _ _ _ _).mp hex; exact h.report _ _
  | full f => obtain ⟨-, rfl⟩ := (State.whenLegal_next_iff _ _ _ _).mp hex; exact h.report _ _
  | len f => obtain ⟨-, rfl⟩ := (State.whenLegal_next_iff _ _ _ _).mp hex; exact h.report _ _
  | tinit => exact h.exec_tinit hex
  | write av payload => exact h.exec_write hex
  | read1 => exact h.exec_read1 hex
  | rxirq => exact h.exec_rxirq hex
  | txirq => exact h.exec_txirq hex

/-- Starting an operation keeps the invariant. -/
theorem State.Inv.start (h : s.Inv) {i : Instr} (hst : Machine.start i s = .next t) : t.Inv := by
  rcases start_next_cases i s t hst with ⟨o, ho, hl, rfl⟩ | ⟨-, hex⟩
  · obtain ⟨hfits, hidle⟩ := fits_of_legality hl ho
    exact h.launch (fresh_of_opOf ho) hidle hfits (h.boot.launch h.roles hl ho)
  · exact h.exec hex

/-- The tape and the issuer are no part of the invariant. -/
theorem State.Inv.present (h : s.Inv) (a : Agent) (rest : List Event) : (s.present a rest).Inv :=
  h.congr (by simp) (by simp) rfl rfl (by simp) rfl

theorem State.Inv.with_todo (h : s.Inv) (rest : List Event) : ({ s with todo := rest } : State).Inv :=
  h.present s.issuer rest

theorem State.Inv.step (h : s.Inv) (hst : Machine.step s = .next t) : t.Inv := by
  rcases step_next_cases s t hst with ⟨-, rfl⟩ | ⟨a, c, rest, i, -, -, he⟩ | ⟨a, c, rest, i, -, -, he⟩ |
    ⟨a, rest, -, he⟩ | ⟨b, e, rest, -, he⟩ | ⟨rest, -, he⟩
  · exact h
  · exact (h.present a rest).exec he
  · exact (h.present a rest).start he
  · exact (h.with_todo rest).tick he
  · obtain ⟨-, rfl⟩ := (receive_next_iff _ _ _ _).mp he
    exact (h.with_todo rest).congr (fun f => by cases f <;> rfl) (fun d => by cases d <;> rfl) rfl rfl
      (fun f => by cases f <;> rfl) rfl
  · obtain ⟨-, rfl⟩ := (transmit_next_iff _ _).mp he
    exact (h.with_todo rest).congr (fun f => by cases f <;> rfl) (fun d => by cases d <;> rfl) rfl rfl
      (fun f => by cases f <;> rfl) rfl

end

end Sys2Proof.Machine
end

section
/-! PROOF. The invariant along runs, and what it says of the count, the queue and the registers (10_state.md R12 to
R14, R18, R22; 20_memory.md R44, R46, R58). -/

namespace Sys2Proof.Machine

/-- Settles O34: at power-on nothing is in flight and nothing initialised, so the invariant speaks of the ranges and
the storage alone. -/
theorem powerOnMeetsTheInvariant : Obligations.PowerOnMeetsTheInvariant := by
  refine State.Inv.of_quiet ⟨rfl, rfl, rfl, rfl⟩ (fun hb => by cases hb) (fun f => ?_) (fun hb => by cases hb)
  have hok : InstOk false (Buffer.powerOn Config.capacityLog2) none none :=
    ⟨⟨Buffer.cap_pos _, Buffer.cap_pos _, Nat.zero_le _⟩, ⟨rfl, by simp [Buffer.powerOn]⟩,
      fun hv => by cases hv⟩
  cases f <;> exact hok

/-- Settles O35: each kind of move keeps the invariant. -/
theorem stepKeepsTheInvariant : Obligations.StepKeepsTheInvariant :=
  fun _ _ h hst => h.step hst

/-- A run of one step and `n` more. -/
theorem run_succ_next {n : Nat} {s t : State} (h : Host.Core.run core (n + 1) s = .next t) :
    ∃ u, step s = .next u ∧ Host.Core.run core n u = .next t := by
  cases hst : core.step s with
  | next u => exact ⟨u, hst, by simpa only [Host.Core.run, hst] using h⟩
  | fault r => simp only [Host.Core.run, hst] at h; cases h
  | refused r => simp only [Host.Core.run, hst] at h; cases h

/-- What one step keeps, a run of any length keeps. -/
theorem State.Inv.run (n : Nat) {s t : State} (h : s.Inv) (hrun : Host.Core.run core n s = .next t) : t.Inv := by
  induction n generalizing s with
  | zero => cases hrun; exact h
  | succ n ih =>
    obtain ⟨u, hu, hrun⟩ := run_succ_next hrun
    exact ih (h.step hu) hrun

/-- Settles O36, by induction on the length of the run. -/
theorem countStaysWithinCapacity : Obligations.CountStaysWithinCapacity := by
  intro n s t f h hrun
  obtain ⟨-, -, hcount⟩ := (h.run n hrun).inRange f
  exact ⟨Nat.zero_le _, hcount⟩

/-- Settles O38: each way a micro-step can move on the buffer does one of the three to the queue. -/
theorem microStepsRefineTheQueue : Obligations.MicroStepsRefineTheQueue := by
  intro a s t f h ht hf
  obtain ⟨o, ho, -, rfl⟩ := (tick_next_iff a s t).mp ht
  have hmove := h.roles.instMove_advance ho f
  have hring := h.ring f hf
  obtain ⟨hw, hr, -⟩ := h.inRange f
  unfold State.queue
  cases hmove with
  | stays hb _ hc => exact .inl (by rw [hb, hc])
  | inits q hi => exact absurd ((h.underWay ho f).initialising (by simp [hi])) (by simp [hf])
  | begins payload _ _ hb _ hc => exact .inl (by rw [hb, hc])
  | produces av r payload hp hb _ hc =>
    rw [hp] at hring
    rw [hb, hc]
    rcases hring.unread_enqStep f av hw with he | ⟨hpos, x, hx, he⟩
    · exact .inl he
    · exact .inr (.inl ⟨r, payload, x, hp, hpos, hx, he⟩)
  | consumes av m r hc0 hb _ hc =>
    rw [hc0] at hring
    rw [hb, hc, hc0]
    rcases hring.unread_deqStep f av m hr with he | ⟨x, hpos, he⟩
    · exact .inl he
    · exact .inr (.inr ⟨r, x, rfl, hpos, he⟩)

/-- Settles O39: the registers of a buffer are written by I1 to I3, E2, E3, D2 and D3 alone. -/
theorem registersMoveOnlyAsListed : Obligations.RegistersMoveOnlyAsListed := by
  intro a s t f h ht
  refine ⟨(h.tick ht).inRange f, ?_⟩
  obtain ⟨o, ho, -, rfl⟩ := (tick_next_iff a s t).mp ht
  have hunder := h.underWay ho f
  cases h.roles.instMove_advance ho f with
  | stays hb _ _ => exact ⟨.inl (by rw [hb]), .inl (by rw [hb]), .inl (by rw [hb])⟩
  | begins payload _ _ hb _ _ => exact ⟨.inl (by rw [hb]), .inl (by rw [hb]), .inl (by rw [hb])⟩
  | inits q hi hb _ _ =>
    have hf := hunder.initialising (by simp [hi])
    rw [hb]
    cases q with
    | i1 => exact ⟨.inr (.inl ⟨rfl, hf⟩), .inl rfl, .inl rfl⟩
    | i2 => exact ⟨.inl rfl, .inr (.inl ⟨rfl, hf⟩), .inl rfl⟩
    | i3 => exact ⟨.inl rfl, .inl rfl, .inr (.inl ⟨rfl, hf⟩)⟩
    | i4 => exact ⟨.inl rfl, .inl rfl, .inl rfl⟩
  | produces av r payload hp hb _ _ =>
    rw [hb]
    rcases r.step_buffer_cases av payload (s.buf f) with
      he | ⟨x, -, he⟩ | ⟨hpos, he⟩ | ⟨hpos, he⟩ | ⟨-, he⟩ <;> rw [he]
    · exact ⟨.inl rfl, .inl rfl, .inl rfl⟩
    · exact ⟨.inl rfl, .inl rfl, .inl rfl⟩
    · exact ⟨.inr (.inr ⟨rfl, r, payload, hp, hpos⟩), .inl rfl, .inl rfl⟩
    · exact ⟨.inl rfl, .inl rfl, .inr (.inr (.inl ⟨rfl, r, payload, hp, hpos⟩))⟩
    · exact ⟨.inl rfl, .inl rfl, .inl rfl⟩
  | consumes av m r hc hb _ _ =>
    have hcons := (h.ring f (hunder.consuming (by simp [hc]))).consumer
    rw [hc] at hcons
    rw [hb]
    rcases r.step_buffer_cases f av m (s.buf f) with
      he | ⟨x, hpos, he⟩ | ⟨x, hpos, he⟩ | ⟨x, -, he⟩ <;> rw [he]
    · exact ⟨.inl rfl, .inl rfl, .inl rfl⟩
    · exact ⟨.inl rfl, .inr (.inr ⟨rfl, r, x, hc, hpos⟩), .inl rfl⟩
    · simp only [ConsumerOk, hpos] at hcons
      exact ⟨.inl rfl, .inl rfl, .inr (.inr (.inr ⟨Nat.sub_add_cancel hcons.1, r, x, hc, hpos⟩))⟩
    · exact ⟨.inl rfl, .inl rfl, .inl rfl⟩

end Sys2Proof.Machine
end

section
/-! PROOF. No operation reads the stored full flag (10_state.md R15, 40_buffer_ops.md R83): whatever is done to a
buffer does the same to the buffer with its flag cleared. -/

namespace Sys2Proof.Machine

/-! ## What may be issued -/

/-- Whether an operation may be issued depends on no buffer. -/
theorem legality_congr {s t : State} (hissuer : t.issuer = s.issuer) (hboot : t.booted = s.booted)
    (hact : t.active = s.active) (hinit : ∀ f, t.initialised f = s.initialised f)
    (hagent : ∀ d, t.agent d = s.agent d) (hper : t.per = s.per) (i : Instr) : legality i t = legality i s := by
  have hnf : t.notForeground = s.notForeground := by rw [State.notForeground, State.notForeground, hissuer]
  have hfg : t.fgRefusals = s.fgRefusals := by
    simp only [State.fgRefusals, State.issuerBusy, State.issuerPreempted, hissuer, hact, hagent]
  have hhandler : t.handlerRefusals = s.handlerRefusals := by
    simp only [State.handlerRefusals, State.mayMove, hissuer, hboot, hact]
  have hobserver : ∀ f, t.observerRefusals f = s.observerRefusals f := fun f => by
    rw [State.observerRefusals, State.observerRefusals, hnf, hfg, hhandler, hinit]
  cases i <;> simp only [legality, State.issuerBusy, hnf, hfg, hobserver, hissuer, hboot, hinit, hagent, hper]

/-! ## One buffer -/

@[simp] theorem Buffer.clearFull_clearFull (b : Buffer) : b.clearFull.clearFull = b.clearFull := rfl

@[simp] theorem Buffer.isFull_clearFull (b : Buffer) : b.clearFull.isFull = b.isFull := rfl

@[simp] theorem Buffer.isEmpty_clearFull (b : Buffer) : b.clearFull.isEmpty = b.isEmpty := rfl

@[simp] theorem Buffer.free_clearFull (b : Buffer) : b.clearFull.free = b.free := rfl

@[simp] theorem Buffer.count_clearFull (b : Buffer) : b.clearFull.count = b.count := rfl

theorem Buffer.enqLoop_clearFull (b : Buffer) (payload : List Byte) :
    (b.clearFull.enqLoop payload).1.clearFull = (b.enqLoop payload).1.clearFull ∧
    (b.clearFull.enqLoop payload).2 = (b.enqLoop payload).2 := by
  cases payload with
  | nil => exact ⟨rfl, rfl⟩
  | cons x rest =>
    by_cases hf : b.isFull = true
    · simp [Buffer.enqLoop, Buffer.enq1, hf]
    · have hsame : (b.clearFull.e1 x).e2.e3.e4 = (b.e1 x).e2.e3.e4 := rfl
      simp [Buffer.enqLoop, Buffer.enq1, hf, hsame]

theorem Buffer.deqLoop_clearFull (f : Inst) (b : Buffer) (n : Nat) :
    (b.clearFull.deqLoop f n).1.clearFull = (b.deqLoop f n).1.clearFull ∧
    (b.clearFull.deqLoop f n).2 = (b.deqLoop f n).2 := by
  cases n with
  | zero => exact ⟨rfl, rfl⟩
  | succ n =>
    by_cases he : b.isEmpty = true
    · simp [Buffer.deqLoop, Buffer.deq1, he]
    · have hsame : b.clearFull.d2.d3.d4 = b.d2.d3.d4 := rfl
      have hread : b.clearFull.d1 f = b.d1 f := rfl
      simp [Buffer.deqLoop, Buffer.deq1, he, hsame, hread]

@[simp] theorem Buffer.enqueue_clearFull_fst (b : Buffer) (av : Bool) (payload : List Byte) :
    (b.clearFull.enqueue av payload).1.clearFull = (b.enqueue av payload).1.clearFull := by
  cases av
  · rfl
  · exact (b.enqLoop_clearFull payload).1

@[simp] theorem Buffer.enqueue_clearFull_snd (b : Buffer) (av : Bool) (payload : List Byte) :
    (b.clearFull.enqueue av payload).2 = (b.enqueue av payload).2 := by
  cases av
  · rfl
  · exact (b.enqLoop_clearFull payload).2

@[simp] theorem Buffer.dequeue_clearFull_fst (f : Inst) (b : Buffer) (av : Bool) (n : Nat) :
    (b.clearFull.dequeue f av n).1.clearFull = (b.dequeue f av n).1.clearFull := by
  cases av
  · rfl
  · exact (b.deqLoop_clearFull f n).1

@[simp] theorem Buffer.dequeue_clearFull_snd (f : Inst) (b : Buffer) (av : Bool) (n : Nat) :
    (b.clearFull.dequeue f av n).2 = (b.dequeue f av n).2 := by
  cases av
  · rfl
  · exact (b.deqLoop_clearFull f n).2

@[simp] theorem Buffer.init_clearFull (b : Buffer) : b.clearFull.init = b.init := rfl

@[simp] theorem InitPos.step_clearFull_fst (p : InitPos) (b : Buffer) :
    (p.step b.clearFull).1.clearFull = (p.step b).1.clearFull := by cases p <;> rfl

@[simp] theorem InitPos.step_clearFull_snd (p : InitPos) (b : Buffer) :
    (p.step b.clearFull).2 = (p.step b).2 := by cases p <;> rfl

@[simp] theorem EnqRun.step_clearFull_fst (av : Bool) (payload : List Byte) (r : EnqRun) (b : Buffer) :
    (r.step av payload b.clearFull).1.clearFull = (r.step av payload b).1.clearFull := by
  unfold EnqRun.step
  cases r.pos <;> rfl

@[simp] theorem EnqRun.step_clearFull_snd (av : Bool) (payload : List Byte) (r : EnqRun) (b : Buffer) :
    (r.step av payload b.clearFull).2 = (r.step av payload b).2 := by
  unfold EnqRun.step
  cases r.pos <;> rfl

@[simp] theorem DeqRun.step_clearFull_fst (f : Inst) (av : Bool) (m : Nat) (r : DeqRun) (b : Buffer) :
    (r.step f av m b.clearFull).1.clearFull = (r.step f av m b).1.clearFull := by
  unfold DeqRun.step
  split <;> rfl

@[simp] theorem DeqRun.step_clearFull_snd (f : Inst) (av : Bool) (m : Nat) (r : DeqRun) (b : Buffer) :
    (r.step f av m b.clearFull).2 = (r.step f av m b).2 := by
  unfold DeqRun.step
  split <;> rfl

/-! ## The state -/

@[simp] theorem State.inb_eraseFull (s : State) : s.eraseFull.inb = s.inb.clearFull := rfl
@[simp] theorem State.outb_eraseFull (s : State) : s.eraseFull.outb = s.outb.clearFull := rfl
@[simp] theorem State.per_eraseFull (s : State) : s.eraseFull.per = s.per := rfl
@[simp] theorem State.issuer_eraseFull (s : State) : s.eraseFull.issuer = s.issuer := rfl
@[simp] theorem State.eraseFull_eraseFull (s : State) : s.eraseFull.eraseFull = s.eraseFull := rfl

@[simp] theorem State.buf_eraseFull (s : State) (f : Inst) : s.eraseFull.buf f = (s.buf f).clearFull := by
  cases f <;> rfl

@[simp] theorem State.agent_eraseFull (s : State) (d : Agent) : s.eraseFull.agent d = s.agent d := by
  cases d <;> rfl

@[simp] theorem State.initialised_eraseFull (s : State) (f : Inst) :
    s.eraseFull.initialised f = s.initialised f := by cases f <;> rfl

@[simp] theorem State.legality_eraseFull (s : State) (i : Instr) : legality i s.eraseFull = legality i s :=
  legality_congr rfl rfl rfl (fun f => s.initialised_eraseFull f) (fun d => s.agent_eraseFull d) rfl i

@[simp] theorem State.eraseFull_setBuf (s : State) (f : Inst) (b : Buffer) :
    (s.setBuf f b).eraseFull = s.eraseFull.setBuf f b.clearFull := by cases f <;> rfl

@[simp] theorem State.eraseFull_setAgent (s : State) (a : Agent) (x : AgentState) :
    (s.setAgent a x).eraseFull = s.eraseFull.setAgent a x := by cases a <;> rfl

@[simp] theorem State.eraseFull_setInitialised (s : State) (f : Inst) (v : Bool) :
    (s.setInitialised f v).eraseFull = s.eraseFull.setInitialised f v := by cases f <;> rfl

@[simp] theorem State.eraseFull_leave (s : State) (a : Agent) : (s.leave a).eraseFull = s.eraseFull.leave a := by
  cases a <;> rfl

@[simp] theorem State.eraseFull_enter (s : State) (a : Agent) : (s.enter a).eraseFull = s.eraseFull.enter a := by
  cases a <;> rfl

@[simp] theorem State.eraseFull_boot (s : State) : s.boot.eraseFull = s.eraseFull.boot := rfl
@[simp] theorem State.eraseFull_readRx (s : State) : s.readRx.eraseFull = s.eraseFull.readRx := rfl
@[simp] theorem State.eraseFull_ackRx (s : State) : s.ackRx.eraseFull = s.eraseFull.ackRx := rfl
@[simp] theorem State.eraseFull_enableTx (s : State) : s.enableTx.eraseFull = s.eraseFull.enableTx := rfl
@[simp] theorem State.eraseFull_disableTx (s : State) : s.disableTx.eraseFull = s.eraseFull.disableTx := rfl
@[simp] theorem State.eraseFull_sendTx (s : State) (x : Byte) :
    (s.sendTx x).eraseFull = s.eraseFull.sendTx x := rfl

theorem State.launch_eraseFull (s : State) (i : Instr) (o : Op) :
    s.eraseFull.launch i o = (s.launch i o).eraseFull := by
  have hun : s.eraseFull.unready i = (s.unready i).eraseFull := by
    cases i <;> simp [State.unready]
  simp [State.launch, hun]

/-! ## Outcomes -/

/-- Two outcomes alike but for the stored flags: next states that differ in them alone, or the same refusal. -/
def AlikeButFlags (x y : Host.Outcome State Fault Refusal) : Prop :=
  (∀ t, x = .next t → ∃ u, y = .next u ∧ u.eraseFull = t.eraseFull) ∧ ∀ r, x = .refused r → y = .refused r

theorem AlikeButFlags.next {t u : State} (h : u.eraseFull = t.eraseFull) : AlikeButFlags (.next t) (.next u) :=
  ⟨fun _ ht => ⟨u, rfl, by cases ht; exact h⟩, fun _ hr => (by cases hr)⟩

theorem AlikeButFlags.refused (r : Refusal) : AlikeButFlags (.refused r) (.refused r) :=
  ⟨fun _ ht => (by cases ht), fun _ hr => hr⟩

theorem AlikeButFlags.whenLegal {s t u : State} {i : Instr} (h : u.eraseFull = t.eraseFull) :
    AlikeButFlags (s.whenLegal i t) (s.eraseFull.whenLegal i u) := by
  unfold State.whenLegal
  rw [State.legality_eraseFull]
  cases legality i s with
  | none => exact .next h
  | some r => exact .refused r

theorem exec_alike (i : Instr) (s : State) : AlikeButFlags (exec i s) (exec i s.eraseFull) := by
  cases i with
  | init f => exact .whenLegal (by simp)
  | enq f av payload => exact .whenLegal (by simp)
  | deq f av m => exact .whenLegal (by simp)
  | empty f => exact .whenLegal (by simp)
  | full f => exact .whenLegal (by simp [Buffer.isFull_clearFull])
  | len f => exact .whenLegal (by simp)
  | tinit => exact .whenLegal (by simp)
  | write av payload =>
    refine .whenLegal ?_
    cases av
    · simp
    · by_cases hroom : payload.length ≤ s.outb.free <;> simp [hroom, State.writeOut_eq]
  | read1 => exact .whenLegal (by simp)
  | rxirq =>
    refine .whenLegal ?_
    cases he : s.per.rxErr <;> simp [he, State.storeRx_eq]
  | txirq =>
    refine .whenLegal ?_
    simp only [State.outb_eraseFull, Buffer.dequeue_clearFull_snd]
    split <;> simp

theorem microOp_eraseFull (o : Op) (s : State) :
    (microOp o s.eraseFull).1.eraseFull = (microOp o s).1.eraseFull ∧
    (microOp o s.eraseFull).2 = (microOp o s).2 := by
  cases o with
  | init f p => cases hp : (p.step (s.buf f)).2 <;> simp [microOp, microInit, hp]
  | enq f av payload r => simp [microOp, microEnq]
  | deq f av m r => simp [microOp, microDeq]
  | tinit p => cases p <;> simp [microOp, microTinit]
  | write av payload p =>
    cases p with
    | w1 => by_cases hroom : payload.length ≤ s.outb.free <;> simp [microOp, microWrite, hroom]
    | w3 => cases hen : s.per.transmitActive <;> simp [microOp, microWrite, hen]
    | _ => simp [microOp, microWrite]
  | read1 p =>
    cases p with
    | x2 bytes => cases bytes <;> exact ⟨rfl, rfl⟩
    | _ => simp [microOp, microRead1]
  | rxirq p =>
    cases p with
    | rx5 x => cases hf : s.inb.isFull <;> simp [microOp, microRxirq, hf]
    | _ => simp [microOp, microRxirq]
  | txirq p =>
    cases p with
    | tx2 bytes => cases bytes <;> exact ⟨rfl, rfl⟩
    | _ => simp [microOp, microTxirq]

theorem State.advance_eraseFull (s : State) (a : Agent) (o : Op) :
    (s.eraseFull.advance a o).eraseFull = (s.advance a o).eraseFull := by
  obtain ⟨hstate, hres⟩ := microOp_eraseFull o s
  unfold State.advance
  rw [hres]
  cases (microOp o s).2 <;> simp [hstate]

theorem start_alike (i : Instr) (s : State) : AlikeButFlags (start i s) (start i s.eraseFull) := by
  unfold start
  cases opOf i with
  | some o => exact .whenLegal (by rw [State.launch_eraseFull]; rfl)
  | none => exact exec_alike i s

theorem tick_alike (a : Agent) (s : State) : AlikeButFlags (tick a s) (tick a s.eraseFull) := by
  have hmay : s.eraseFull.mayMove a = s.mayMove a := rfl
  unfold tick
  rw [State.agent_eraseFull, hmay]
  cases (s.agent a).inflight with
  | none => exact .refused _
  | some o =>
    cases hm : s.mayMove a with
    | true => exact .next (s.advance_eraseFull a o)
    | false => exact .refused _

theorem step_alike (s : State) : AlikeButFlags (step s) (step s.eraseFull) := by
  have htodo : s.eraseFull.todo = s.todo := rfl
  unfold step
  rw [htodo]
  cases s.todo with
  | nil => exact .next rfl
  | cons e rest =>
    cases e with
    | issue a c => 
      simp only [onDecoded]
      cases decode c with
      | instr i => exact exec_alike i (s.present a rest)
      | reserved _ => exact .refused _
    | start a c =>
      simp only [onDecoded]
      cases decode c with
      | instr i => exact start_alike i (s.present a rest)
      | reserved _ => exact .refused _
    | tick a => exact tick_alike a { s with todo := rest }
    | receive b e =>
      cases hr : s.per.rxReady <;> simp only [receive, State.per_eraseFull, hr]
      · exact .next rfl
      · exact .refused _
    | transmit =>
      cases he : s.per.txEmpty <;> simp only [transmit, State.per_eraseFull, he]
      · exact .next rfl
      · exact .refused _

/-- Settles O42: a step on the state with its flags cleared is alike but for the flags. -/
theorem storedFlagIsNeverRead : Obligations.StoredFlagIsNeverRead :=
  step_alike

end Sys2Proof.Machine
end

section
/-! PROOF. Whole operations: the empty state (10_state.md R31), what may not be issued (R32), the other buffer (R10),
the stored flag (R19) and the form of storage (log 5). -/

namespace Sys2Proof.Machine

/-! ## Refusals -/

/-- What may not be issued is refused, whole or by micro-steps (60_exceptions.md R152). -/
theorem refused_of_not_legal {i : Instr} {s : State} (h : legality i s ≠ none) :
    ∃ r, exec i s = .refused r ∧ start i s = .refused r := by
  obtain ⟨r, hr⟩ := Option.ne_none_iff_exists'.mp h
  have hex : exec i s = .refused r := by
    cases i <;> exact State.whenLegal_of_refused _ _ _ _ hr
  refine ⟨r, hex, ?_⟩
  unfold start
  cases opOf i with
  | some o => exact State.whenLegal_of_refused _ _ _ _ hr
  | none => exact hex

/-- On a buffer that is not initialised only its `INIT` may be issued (R32). -/
theorem not_legal_of_not_initialised {i : Instr} {f : Inst} {s : State} (hbuf : bufferOf i = some f)
    (hf : s.initialised f = false) (hi : i ≠ .init f) : legality i s ≠ none := by
  intro hl
  have hinit : s.initialised f = true := by
    cases i <;> cases hbuf
    case init => exact absurd rfl hi
    case enq av payload =>
      obtain ⟨-, -, hinit, -⟩ := (legality_enq_iff f av payload s).mp hl
      exact hinit
    case deq av m =>
      obtain ⟨-, -, hinit, -⟩ := (legality_deq_iff f av m s).mp hl
      exact hinit
    all_goals exact ((observer_legal_iff f s).mp hl).1
  simp [hf] at hinit

/-- Before `TINIT` has returned no operation of the transport may be issued (R181). -/
theorem not_legal_of_not_booted {i : Instr} {s : State} (hb : s.booted = false)
    (hi : i = .read1 ∨ i = .rxirq ∨ i = .txirq ∨ ∃ av p, i = .write av p) : legality i s ≠ none := by
  intro hl
  have hboot : s.booted = true := by
    rcases hi with rfl | rfl | rfl | ⟨av, p, rfl⟩
    · obtain ⟨-, hboot, -⟩ := (legality_read1_iff s).mp hl
      exact hboot
    · obtain ⟨-, hboot, -⟩ := (legality_rxirq_iff s).mp hl
      exact hboot
    · obtain ⟨-, hboot, -⟩ := (legality_txirq_iff s).mp hl
      exact hboot
    · obtain ⟨-, hboot, -⟩ := (legality_write_iff av p s).mp hl
      exact hboot
  simp [hb] at hboot

/-- In an assembled transport neither `TINIT` nor `INIT` may be issued (R82, R111). -/
theorem not_legal_of_booted {i : Instr} {s : State} (hb : s.booted = true) (hi : i = .tinit ∨ ∃ f, i = .init f) :
    legality i s ≠ none := by
  intro hl
  have hboot : s.booted = false := by
    rcases hi with rfl | ⟨f, rfl⟩
    · obtain ⟨-, hboot, -⟩ := (legality_tinit_iff s).mp hl
      exact hboot
    · obtain ⟨-, hboot, -⟩ := (legality_init_iff f s).mp hl
      exact hboot
  simp [hb] at hboot

/-- Settles O56: each clause contradicts what legality asks of initialisation. -/
theorem nothingRunsBeforeInitialisation : Obligations.NothingRunsBeforeInitialisation := by
  refine ⟨fun i f s hbuf hf hi => refused_of_not_legal (not_legal_of_not_initialised hbuf hf hi),
    fun i s hb hin hout ht hi => refused_of_not_legal ?_,
    fun i s hb hi => refused_of_not_legal (not_legal_of_not_booted hb hi),
    fun i s hb hi => refused_of_not_legal (not_legal_of_booted hb hi)⟩
  cases hbuf : bufferOf i with
  | some f => exact not_legal_of_not_initialised hbuf (by cases f <;> simp [hin, hout]) (hi f)
  | none =>
    refine not_legal_of_not_booted hb ?_
    cases i <;> simp_all [bufferOf]

/-! ## The empty state -/

/-- Settles O10: `INIT` and `TINIT` are one assignment to each register. -/
theorem initAndTinitEnterTheEmptyState : Obligations.InitAndTinitEnterTheEmptyState := by
  refine ⟨fun f s hready hb => ?_, fun s hready hb => ?_⟩ <;> obtain ⟨ha, hfg, hact⟩ := hready
  · have hl := (legality_init_iff f s).mpr ⟨ha, hb, hfg, hact⟩
    refine (State.whenLegal_of_legal _ _ _ hl).trans ?_
    rw [ha]
    rfl
  · have hl := (legality_tinit_iff s).mpr ⟨ha, hb, hfg, hact⟩
    have hfinish : ∀ u : State, u.finish s.issuer .nothing = u.finish .fg .nothing := fun u => by rw [ha]
    refine (State.whenLegal_of_legal _ _ _ hl).trans ?_
    rw [hfinish]
    rfl

/-! ## The other buffer -/

theorem State.setBuf_comm (s : State) {f g : Inst} (b x : Buffer) (h : g ≠ f) :
    (s.setBuf g b).setBuf f x = (s.setBuf f x).setBuf g b := by
  cases f <;> cases g
  case inbound.inbound => exact absurd rfl h
  case outbound.outbound => exact absurd rfl h
  all_goals rfl

theorem State.setAgent_setBuf (s : State) (a : Agent) (x : AgentState) (g : Inst) (b : Buffer) :
    (s.setBuf g b).setAgent a x = (s.setAgent a x).setBuf g b := by
  cases a <;> cases g <;> rfl

theorem State.setInitialised_setBuf (s : State) (f : Inst) (v : Bool) (g : Inst) (b : Buffer) :
    (s.setBuf g b).setInitialised f v = (s.setInitialised f v).setBuf g b := by
  cases f <;> cases g <;> rfl

theorem State.legality_setBuf (s : State) (g : Inst) (b : Buffer) (i : Instr) :
    legality i (s.setBuf g b) = legality i s :=
  legality_congr (s.issuer_setBuf g b) (s.booted_setBuf g b) (s.active_setBuf g b) (s.initialised_setBuf g b)
    (s.agent_setBuf g b) (s.per_setBuf g b) i

/-- A meaning whose next state leaves `g` alone and does not depend on it. -/
theorem State.whenLegal_independent {s t t' : State} {i : Instr} {g : Inst} {b : Buffer}
    (hbuf : t.buf g = s.buf g) (hset : t' = t.setBuf g b) :
    (∀ u, s.whenLegal i t = .next u →
      u.buf g = s.buf g ∧ (s.setBuf g b).whenLegal i t' = .next (u.setBuf g b)) ∧
    (∀ r, s.whenLegal i t = .refused r → (s.setBuf g b).whenLegal i t' = .refused r) := by
  refine ⟨fun u hu => ?_, fun r hr => ?_⟩
  · obtain ⟨hl, rfl⟩ := (State.whenLegal_next_iff _ _ _ _).mp hu
    exact ⟨hbuf, hset ▸ State.whenLegal_of_legal _ _ _ ((s.legality_setBuf g b i).trans hl)⟩
  · have hl := (State.whenLegal_refused_iff _ _ _ _).mp hr
    exact State.whenLegal_of_refused _ _ _ _ ((s.legality_setBuf g b i).trans hl)

/-- Settles O17: no meaning of a format B operation on `f` names the other buffer. -/
theorem instancesAreIndependent : Obligations.InstancesAreIndependent := by
  intro i f g s b hbuf hg
  have hsame : ∀ x : Buffer, (s.setBuf f x).buf g = s.buf g := fun x => s.buf_setBuf_of_ne x f g hg
  have hread : (s.setBuf g b).buf f = s.buf f := s.buf_setBuf_of_ne b g f (Ne.symm hg)
  have hcomm := fun x => s.setBuf_comm b x hg
  cases i <;> cases hbuf
  case init =>
    refine State.whenLegal_independent (by simp [hsame]) ?_
    simp [hread, hcomm, State.setAgent_setBuf, State.setInitialised_setBuf]
  case enq av payload =>
    refine State.whenLegal_independent (by simp [hsame]) ?_
    simp [hread, hcomm, State.setAgent_setBuf]
  case deq av m =>
    refine State.whenLegal_independent (by simp [hsame]) ?_
    simp [hread, hcomm, State.setAgent_setBuf]
  case empty => exact State.whenLegal_independent (by simp) (by simp [hread, State.setAgent_setBuf])
  case full => exact State.whenLegal_independent (by simp) (by simp [hread, State.setAgent_setBuf])
  case len => exact State.whenLegal_independent (by simp) (by simp [hread, State.setAgent_setBuf])

/-! ## The stored flag -/

theorem Buffer.FlagOk.recomputed (b : Buffer) : b.e4.FlagOk := by
  show b.isFull = decide (b.count = b.cap)
  rw [Buffer.isFull, beq_eq_decide]

theorem Buffer.FlagOk.init (b : Buffer) : b.init.FlagOk := by
  have hne : ¬ 0 = b.cap := b.cap_pos.ne
  exact (decide_eq_false hne).symm

/-- Each byte enqueued ends with the flag recomputed, E4. -/
theorem Buffer.FlagOk.enqueue {b : Buffer} (h : b.FlagOk) (av : Bool) (payload : List Byte) :
    (b.enqueue av payload).1.FlagOk := by
  cases av with
  | false => exact h
  | true =>
    show (b.enqLoop payload).1.FlagOk
    induction payload generalizing b with
    | nil => exact h
    | cons x rest ih =>
      by_cases hf : b.isFull = true
      · simpa [Buffer.enqLoop, Buffer.enq1, hf] using h
      · simpa [Buffer.enqLoop, Buffer.enq1, hf] using ih (.recomputed (b.e1 x).e2.e3)

/-- Each byte dequeued ends with the flag cleared, D4, and with a free slot. -/
theorem Buffer.FlagOk.dequeue {b : Buffer} (h : b.FlagOk) (hn : b.count ≤ b.cap) (f : Inst) (av : Bool) (n : Nat) :
    (b.dequeue f av n).1.FlagOk := by
  cases av with
  | false => exact h
  | true =>
    show (b.deqLoop f n).1.FlagOk
    induction n generalizing b with
    | zero => exact h
    | succ n ih =>
      by_cases he : b.isEmpty = true
      · simpa [Buffer.deqLoop, Buffer.deq1, he] using h
      · have hpos : b.count ≠ 0 := fun h0 => he (b.isEmpty_iff.mpr h0)
        have hne : ¬ b.count - 1 = b.cap := by omega
        have hle : b.count - 1 ≤ b.cap := by omega
        have hcleared : b.d2.d3.d4.FlagOk := (decide_eq_false hne).symm
        simpa [Buffer.deqLoop, Buffer.deq1, he] using ih hcleared hle

theorem WholeMove.flagOk {f : Inst} {s : State} {b' : Buffer} (hmove : WholeMove f s b') (h : (s.buf f).FlagOk)
    (hn : (s.buf f).count ≤ (s.buf f).cap) : b'.FlagOk := by
  cases hmove with
  | stays hb => exact hb ▸ h
  | inits hb => exact hb ▸ .init _
  | enqueues av payload hb => exact hb ▸ h.enqueue av payload
  | dequeues av n hb => exact hb ▸ h.dequeue hn f av n

/-- Settles O43: each batch ends with a per-byte step that sets the flag right, or does nothing. -/
theorem wholeOperationsKeepTheFullFlag : Obligations.WholeOperationsKeepTheFullFlag := by
  intro i s t h _ hin hout hex
  obtain ⟨-, -, hnin⟩ := h.inRange .inbound
  obtain ⟨-, -, hnout⟩ := h.inRange .outbound
  exact ⟨(exec_wholeMove hex .inbound).flagOk hin hnin, (exec_wholeMove hex .outbound).flagOk hout hnout⟩

/-! ## Storage -/

theorem Buffer.memWf_enqueue {b : Buffer} (h : memWf b.mem = true) (av : Bool) (payload : List Byte) :
    memWf (b.enqueue av payload).1.mem = true := by
  cases av
  · exact h
  · exact b.memWf_enqLoop payload h

@[simp] theorem Buffer.mem_dequeue (f : Inst) (b : Buffer) (av : Bool) (n : Nat) :
    (b.dequeue f av n).1.mem = b.mem := by
  cases av
  · rfl
  · obtain ⟨-, -, hm, -⟩ := b.deqLoop_registers f n
    exact hm

theorem WholeMove.memWf {f : Inst} {s : State} {b' : Buffer} (hmove : WholeMove f s b')
    (h : memWf (s.buf f).mem = true) : memWf b'.mem = true := by
  cases hmove with
  | stays hb => exact hb ▸ h
  | inits hb => exact hb ▸ h
  | enqueues av payload hb => exact hb ▸ Buffer.memWf_enqueue h av payload
  | dequeues av n hb => rw [hb, Buffer.mem_dequeue]; exact h

theorem InstMove.memWf {f : Inst} {i : Option InitPos} {b b' : Buffer} {p p' : Option (EnqRun × List Byte)}
    {c c' : Option DeqRun} (hmove : InstMove f i b b' p p' c c') (h : memWf b.mem = true) : memWf b'.mem = true := by
  cases hmove with
  | stays hb => exact hb ▸ h
  | begins _ _ _ hb => exact hb ▸ h
  | inits q _ hb => rw [hb, InitPos.mem_step]; exact h
  | consumes av m r _ hb => rw [hb, DeqRun.mem_step]; exact h
  | produces av r payload _ hb =>
    rcases r.mem_step_cases av payload b with he | ⟨x, he⟩
    · rw [hb, he]; exact h
    · rw [hb, he]; exact memWf_memWrite _ _ _ h

theorem exec_keeps_memWf {i : Instr} {s t : State} {f : Inst} (hex : exec i s = .next t)
    (h : memWf (s.buf f).mem = true) : memWf (t.buf f).mem = true :=
  (exec_wholeMove hex f).memWf h

/-- The moves that run no operation write no slot. -/
theorem step_keeps_memWf {s t : State} {f : Inst} (hst : step s = .next t) (h : memWf (s.buf f).mem = true) :
    memWf (t.buf f).mem = true := by
  rcases step_next_cases s t hst with ⟨-, rfl⟩ | ⟨a, c, rest, i, -, -, he⟩ | ⟨a, c, rest, i, -, -, he⟩ |
    ⟨a, rest, -, he⟩ | ⟨b, e, rest, -, he⟩ | ⟨rest, -, he⟩
  · exact h
  · exact exec_keeps_memWf he (by simpa using h)
  · rcases start_next_cases i _ t he with ⟨o, -, -, rfl⟩ | ⟨-, hex⟩
    · simpa using h
    · exact exec_keeps_memWf hex (by simpa using h)
  · obtain ⟨o, -, -, rfl⟩ := (tick_next_iff _ _ _).mp he
    rw [State.buf_advance]
    exact (microOp_movesOn f o _).memWf (by cases f <;> exact h)
  · obtain ⟨-, rfl⟩ := (receive_next_iff _ _ _ _).mp he
    cases f <;> exact h
  · obtain ⟨-, rfl⟩ := (transmit_next_iff _ _).mp he
    cases f <;> exact h

/-- Settles O45: only E1 writes a slot, and a write keeps the form. -/
theorem storageStaysCanonical : Obligations.StorageStaysCanonical :=
  fun _ _ hin hout hst => ⟨step_keeps_memWf (f := .inbound) hst hin, step_keeps_memWf (f := .outbound) hst hout⟩

end Sys2Proof.Machine
end

section
/-! PROOF. In an assembled transport each register and each signal is written by its own agents (10_state.md R24,
R28). -/

namespace Sys2Proof.Machine

/-! ## The registers of a buffer -/

/-- What a move of agent `m` (`none` is `PER`) may write of the buffer `f` of a transport: the producer storage and
the write index, the consumer the read index, nobody else anything (R24). -/
structure SideWrites (f : Inst) (m : Option Agent) (b b' : Buffer) : Prop where
  producer : m ≠ some (producerOf f true) → b'.mem = b.mem ∧ b'.widx = b.widx
  consumer : m ≠ some (consumerOf f true) → b'.ridx = b.ridx
  others : m ≠ some (producerOf f true) → m ≠ some (consumerOf f true) → b' = b

theorem SideWrites.refl (f : Inst) (m : Option Agent) (b : Buffer) : SideWrites f m b b :=
  ⟨fun _ => ⟨rfl, rfl⟩, fun _ => rfl, fun _ _ => rfl⟩

theorem SideWrites.of_producer {f : Inst} {b b' : Buffer} (h : b'.ridx = b.ridx) :
    SideWrites f (some (producerOf f true)) b b' :=
  ⟨fun hm => absurd rfl hm, fun _ => h, fun hm => absurd rfl hm⟩

theorem SideWrites.of_consumer {f : Inst} {b b' : Buffer} (hm : b'.mem = b.mem) (hw : b'.widx = b.widx) :
    SideWrites f (some (consumerOf f true)) b b' :=
  ⟨fun _ => ⟨hm, hw⟩, fun hc => absurd rfl hc, fun _ hc => absurd rfl hc⟩

theorem Buffer.ridx_enqueue (b : Buffer) (av : Bool) (payload : List Byte) :
    (b.enqueue av payload).1.ridx = b.ridx := by
  cases av with
  | false => rfl
  | true =>
    show (b.enqLoop payload).1.ridx = b.ridx
    induction payload generalizing b with
    | nil => rfl
    | cons x rest ih =>
      rcases b.enq1_cases x with ⟨-, he⟩ | ⟨-, b', he, -, -, -, hr, -⟩
      · simp [Buffer.enqLoop, he]
      · simpa [Buffer.enqLoop, he] using (ih b').trans hr

theorem Buffer.widx_dequeue (f : Inst) (b : Buffer) (av : Bool) (n : Nat) :
    (b.dequeue f av n).1.widx = b.widx := by
  cases av with
  | false => rfl
  | true =>
    obtain ⟨-, hw, -⟩ := b.deqLoop_registers f n
    exact hw

theorem WholeMove.sideWrites {f : Inst} {s : State} {b' : Buffer} (h : WholeMove f s b') (hb : s.booted = true) :
    SideWrites f (some s.issuer) (s.buf f) b' := by
  cases h with
  | stays he => exact he ▸ .refl f _ _
  | inits _ _ hb' => exact absurd (hb.symm.trans hb') (by decide)
  | enqueues av payload he ha =>
    rw [ha, hb, he]
    exact .of_producer (Buffer.ridx_enqueue _ av payload)
  | dequeues av n he ha =>
    rw [ha, hb, he]
    exact .of_consumer (Buffer.mem_dequeue f _ av n) (Buffer.widx_dequeue f _ av n)

theorem microOp_sideWrites {o : Op} {a : Agent} (hfits : o.fits a true = true) (s : State) (f : Inst) :
    SideWrites f (some a) (s.buf f) ((microOp o s).1.buf f) := by
  cases microOp_movesOn f o s with
  | stays hb => exact hb ▸ .refl f _ _
  | begins _ _ _ hb => exact hb ▸ .refl f _ _
  | inits q hi =>
    obtain ⟨-, hboot⟩ := Op.fits_of_initOn hfits hi
    cases hboot
  | produces av r payload hp hb =>
    rw [Op.producer_of_fits hfits hp, hb]
    exact .of_producer (r.ridx_step av payload _)
  | consumes av m r hc hb =>
    rw [Op.consumer_of_fits hfits hc, hb]
    exact .of_consumer (r.mem_step f av m _) (r.widx_step f av m _)

/-! ## The signals -/

/-- What a move of agent `m` (`none` is `PER`) may do to the signals in a transport (R28's table). -/
inductive SignalMove : Option Agent → Peripheral → Peripheral → Prop
  | stays (m : Option Agent) (p : Peripheral) : SignalMove m p p
  | receive (p : Peripheral) (x : Byte) (e : Bool) :
      SignalMove none p { p with rxReady := true, rxData := x, rxErr := e }
  | transmit (p : Peripheral) : SignalMove none p { p with txEmpty := true }
  | enable (p : Peripheral) : SignalMove (some .fg) p { p with txIrqEn := true }
  | read (p : Peripheral) : SignalMove (some .rxi) p { p with rxReady := false }
  | acknowledge (p : Peripheral) : SignalMove (some .rxi) p { p with rxErr := false }
  | discard (p : Peripheral) : SignalMove (some .rxi) p { p with rxReady := false, rxErr := false }
  | send (p : Peripheral) (x : Byte) : SignalMove (some .txi) p { p with txData := x, txEmpty := false }
  | disable (p : Peripheral) : SignalMove (some .txi) p { p with txIrqEn := false }

theorem microOp_signalMove {o : Op} {a : Agent} (hfits : o.fits a true = true) (s : State) :
    SignalMove (some a) s.per (microOp o s).1.per := by
  cases o <;> simp at hfits <;> subst hfits
  case write av payload p =>
    cases p with
    | w2 r => simpa [microOp, microWrite] using .stays _ _
    | w4 => exact .enable _
    | _ => exact .stays _ _
  case read1 p =>
    cases p with
    | x1 r => simpa [microOp, microRead1] using .stays _ _
    | x2 bytes => cases bytes <;> exact .stays _ _
    | x3 x => exact .stays _ _
  case rxirq p =>
    cases p with
    | rx1 => exact .read _
    | rx3 => exact .acknowledge _
    | rx6 x r => simpa [microOp, microRxirq] using .stays _ _
    | _ => exact .stays _ _
  case txirq p =>
    cases p with
    | tx1 r => simpa [microOp, microTxirq] using .stays _ _
    | tx2 bytes => cases bytes <;> exact .stays _ _
    | tx3 x => exact .send _ x
    | tx5 => exact .disable _
    | _ => exact .stays _ _

theorem exec_signalMove {i : Instr} {s t : State} (hex : exec i s = .next t) (hb : s.booted = true) :
    SignalMove (some s.issuer) s.per t.per := by
  cases i <;> obtain ⟨hl, rfl⟩ := (State.whenLegal_next_iff _ _ _ _).mp hex
  case tinit =>
    obtain ⟨-, hb', -⟩ := (legality_tinit_iff s).mp hl
    exact absurd (hb.symm.trans hb') (by decide)
  case write av payload =>
    obtain ⟨ha, -⟩ := (legality_write_iff av payload s).mp hl
    split
    · split
      · rw [ha]; simpa [State.writeOut_eq] using .enable s.per
      · simpa using .stays _ _
    · simpa using .stays _ _
  case rxirq =>
    obtain ⟨ha, -⟩ := (legality_rxirq_iff s).mp hl
    rw [ha]
    split
    · exact .discard _
    · simpa [State.storeRx_eq] using .read s.per
  case txirq =>
    obtain ⟨ha, -⟩ := (legality_txirq_iff s).mp hl
    rw [ha]
    split
    · simpa using .send s.per _
    · simpa using .disable s.per
  all_goals simpa using .stays _ _

/-! ## One step -/

/-- A step writes a buffer and the signals as its mover may. -/
theorem State.Inv.step_writes {s t : State} (h : s.Inv) (hb : s.booted = true) (hst : Machine.step s = .next t) :
    (∀ f, SideWrites f s.mover (s.buf f) (t.buf f)) ∧ SignalMove s.mover s.per t.per := by
  have hexec : ∀ {i a rest}, Machine.exec i (s.present a rest) = .next t →
      (∀ f, SideWrites f (some a) (s.buf f) (t.buf f)) ∧ SignalMove (some a) s.per t.per := fun hex =>
    ⟨fun f => by simpa using (exec_wholeMove hex f).sideWrites hb, exec_signalMove hex hb⟩
  rcases step_next_cases s t hst with ⟨-, rfl⟩ | ⟨a, c, rest, i, hs, -, he⟩ | ⟨a, c, rest, i, hs, -, he⟩ |
    ⟨a, rest, hs, he⟩ | ⟨b, e, rest, hs, he⟩ | ⟨rest, hs, he⟩
  · exact ⟨fun f => .refl f _ _, .stays _ _⟩
  · rw [show s.mover = some a by simp [State.mover, hs, Event.mover]]
    exact hexec he
  · rw [show s.mover = some a by simp [State.mover, hs, Event.mover]]
    rcases start_next_cases i _ t he with ⟨o, -, -, rfl⟩ | ⟨-, hex⟩
    · exact ⟨fun f => by simpa using .refl f _ _, by simpa [State.per_launch] using .stays _ _⟩
    · exact hexec hex
  · rw [show s.mover = some a by simp [State.mover, hs, Event.mover]]
    obtain ⟨o, ho, -, rfl⟩ := (tick_next_iff _ _ _).mp he
    have hfits : o.fits a true = true := hb ▸ (h.with_todo rest).roles a o ho
    rw [State.per_advance]
    refine ⟨fun f => ?_, microOp_signalMove hfits { s with todo := rest }⟩
    rw [State.buf_advance]
    exact microOp_sideWrites hfits { s with todo := rest } f
  · rw [show s.mover = none by simp [State.mover, hs, Event.mover]]
    obtain ⟨-, rfl⟩ := (receive_next_iff _ _ _ _).mp he
    exact ⟨fun f => by cases f <;> exact .refl _ _ _, .receive _ b e⟩
  · rw [show s.mover = none by simp [State.mover, hs, Event.mover]]
    obtain ⟨-, rfl⟩ := (transmit_next_iff _ _).mp he
    exact ⟨fun f => by cases f <;> exact .refl _ _ _, .transmit _⟩

/-- Settles O47: the clauses about the buffers are those of `SideWrites`, the clauses about the signals hold of each
`SignalMove`. -/
theorem writersAreTheTablesWriters : Obligations.WritersAreTheTablesWriters := by
  intro s t h hb hst
  obtain ⟨hside, hsignal⟩ := h.step_writes hb hst
  obtain ⟨hinp, hinc, hin⟩ := hside .inbound
  obtain ⟨houtp, houtc, hout⟩ := hside .outbound
  refine ⟨hinp, fun hm => ⟨(houtp hm).1, (houtp hm).2, hinc hm⟩, houtc, hin, hout, ?_⟩
  generalize s.mover = m at hsignal
  generalize s.per = p at hsignal
  generalize t.per = p' at hsignal
  cases hsignal <;> simp

end Sys2Proof.Machine
end

section
/-! PROOF. While an activation is in progress the foreground stands (20_memory.md R52, 60_exceptions.md R158). -/

namespace Sys2Proof.Machine

/-- The foreground issues an operation only with no activation in progress (R52 (b)). -/
theorem active_nil_of_legal {i : Instr} {s : State} (hl : legality i s = none) (ha : s.issuer = .fg) :
    s.active = [] := by
  have hobserver : ∀ f, firstRefusal (s.observerRefusals f) = none → s.active = [] := fun f h => by
    obtain ⟨-, ⟨-, -, hact⟩ | ⟨hne, -⟩⟩ := (observer_legal_iff f s).mp h
    · exact hact
    · exact absurd ha hne
  cases i with
  | init f => obtain ⟨-, -, -, hact⟩ := (legality_init_iff f s).mp hl; exact hact
  | enq f av payload => obtain ⟨-, -, -, -, hact⟩ := (legality_enq_iff f av payload s).mp hl; exact hact
  | deq f av m => obtain ⟨-, -, -, -, hact⟩ := (legality_deq_iff f av m s).mp hl; exact hact
  | empty f => exact hobserver f hl
  | full f => exact hobserver f hl
  | len f => exact hobserver f hl
  | tinit => obtain ⟨-, -, -, hact⟩ := (legality_tinit_iff s).mp hl; exact hact
  | write av payload => obtain ⟨-, -, -, hact⟩ := (legality_write_iff av payload s).mp hl; exact hact
  | read1 => obtain ⟨-, -, -, hact⟩ := (legality_read1_iff s).mp hl; exact hact
  | rxirq => obtain ⟨hrx, -⟩ := (legality_rxirq_iff s).mp hl; exact absurd (ha.symm.trans hrx) (by decide)
  | txirq => obtain ⟨htx, -⟩ := (legality_txirq_iff s).mp hl; exact absurd (ha.symm.trans htx) (by decide)

section
variable {s t : State}

theorem exec_keeps_fg {i : Instr} (hact : s.active ≠ []) (h : exec i s = .next t) : t.fg = s.fg := by
  obtain ⟨hl, -, -, -, hothers⟩ := exec_next_frame i s t h
  exact hothers .fg fun ha => hact (active_nil_of_legal hl ha.symm)

theorem start_keeps_fg {i : Instr} (hact : s.active ≠ []) (h : start i s = .next t) : t.fg = s.fg := by
  rcases start_next_cases i s t h with ⟨o, -, hl, rfl⟩ | ⟨-, hex⟩
  · exact s.agent_launch_of_ne i o (d := .fg) fun ha => hact (active_nil_of_legal hl ha.symm)
  · exact exec_keeps_fg hact hex

theorem tick_keeps_fg {a : Agent} (hn : s.NestingOk) (hact : s.active ≠ []) (h : tick a s = .next t) :
    t.fg = s.fg := by
  obtain ⟨o, -, hm, rfl⟩ := (tick_next_iff a s t).mp h
  have ha : Agent.fg ≠ a := fun ha => hact ((s.mayMove_fg_iff hn.noForeground).mp (ha ▸ hm))
  exact s.advance_other a .fg o ha

/-- An activation begins, and the foreground stands where it stood (R52 (a), R158). -/
theorem start_handler_keeps_fg {i : Instr} {o : Op} (hl : legality i s = none) (ho : opOf i = some o)
    (ha : s.issuer ≠ .fg) : ∃ t, start i s = .next t ∧ t.fg = s.fg := by
  refine ⟨s.launch i o, ?_, s.agent_launch_of_ne i o (d := .fg) ha.symm⟩
  simp only [start, ho, State.whenLegal_of_legal _ _ _ hl]

end

/-- Settles O49: the foreground may neither issue nor move, and every other mover leaves its record. -/
theorem foregroundStandsWhileAnActivationRuns : Obligations.ForegroundStandsWhileAnActivationRuns := by
  refine ⟨fun s h => ?_, fun s h => ?_, fun s t hn hact h => ?_⟩
  · exact start_handler_keeps_fg ((legality_rxirq_iff s).mpr h) rfl (by simp [h.1])
  · exact start_handler_keeps_fg ((legality_txirq_iff s).mpr h) rfl (by simp [h.1])
  · rcases step_next_cases s t h with ⟨-, rfl⟩ | ⟨a, c, rest, i, -, -, he⟩ | ⟨a, c, rest, i, -, -, he⟩ |
      ⟨a, rest, -, he⟩ | ⟨b, e, rest, -, he⟩ | ⟨rest, -, he⟩
    · rfl
    · exact exec_keeps_fg (s := s.present a rest) hact he
    · exact start_keeps_fg (s := s.present a rest) hact he
    · exact tick_keeps_fg (s := { s with todo := rest }) ⟨hn.once, hn.noForeground, hn.exact⟩ hact he
    · obtain ⟨-, rfl⟩ := (receive_next_iff _ _ _ _).mp he
      rfl
    · obtain ⟨-, rfl⟩ := (transmit_next_iff _ _).mp he
      rfl

end Sys2Proof.Machine
end

section
/-! PROOF. The two handlers share nothing but the stack of activations (20_memory.md R53, 60_exceptions.md R156):
each whole activation is an update of its own fields, and so is each micro-step, so the two go in either order. -/

namespace Sys2Proof.Machine

/-! ## What a whole activation leaves -/

/-- The transmit signals after a `TXIRQ` that removed these bytes: TX3 or TX5 (42_transport_interrupt.md R134). -/
def Peripheral.afterTx (p : Peripheral) : List Byte → Peripheral
  | b :: _ => { p with txData := b, txEmpty := false }
  | [] => { p with txIrqEn := false }

/-- What a whole `TXIRQ` leaves (R134): `OUT`, the transmit signals and its own record; its agent is the issuer. -/
def State.serveTx (s : State) : State :=
  { s with
    outb := (s.outb.dequeue .outbound true 1).1
    per := s.per.afterTx (s.outb.dequeue .outbound true 1).2
    txi := { inflight := none, result := some .nothing }
    issuer := .txi }

/-- What a whole `RXIRQ` leaves (R131): `IN`, the receive signals and its own record; its agent is the issuer. -/
def State.serveRx (s : State) : State :=
  { s with
    inb := if s.per.rxErr then s.inb else (s.inb.enqueue true [s.per.rxData]).1
    per := { s.per with rxReady := false, rxErr := false }
    rxi := { inflight := none, result := some .nothing }
    issuer := .rxi }

theorem exec_txirq_next_iff (s t : State) : exec .txirq s = .next t ↔ s.TxReady ∧ t = s.serveTx := by
  refine (State.whenLegal_next_iff _ _ _ _).trans ((and_congr_left' (legality_txirq_iff s)).trans ?_)
  refine and_congr_right fun ⟨ha, _⟩ => ?_
  obtain ⟨r, rfl⟩ : ∃ r : State, s = { r with issuer := .txi } := ⟨s, by rw [← ha]⟩
  simp only [State.serveTx]
  cases (r.outb.dequeue .outbound true 1).2 <;> rfl

theorem exec_rxirq_next_iff (s t : State) : exec .rxirq s = .next t ↔ s.RxReady ∧ t = s.serveRx := by
  refine (State.whenLegal_next_iff _ _ _ _).trans ((and_congr_left' (legality_rxirq_iff s)).trans ?_)
  refine and_congr_right fun ⟨ha, _⟩ => ?_
  obtain ⟨r, rfl⟩ : ∃ r : State, s = { r with issuer := .rxi } := ⟨s, by rw [← ha]⟩
  simp only [State.storeRx_eq, State.serveRx]
  cases he : r.per.rxErr
  · have hper : ({ r.per with rxReady := false } : Peripheral) = { r.per with rxReady := false, rxErr := false } := by
      rw [← he]
    rw [← hper]
    rfl
  · rfl

/-! ## The receive signals and the transmit signals are apart -/

@[simp] theorem Peripheral.rxReady_afterTx (p : Peripheral) (bytes : List Byte) :
    (p.afterTx bytes).rxReady = p.rxReady := by cases bytes <;> rfl

@[simp] theorem Peripheral.rxData_afterTx (p : Peripheral) (bytes : List Byte) :
    (p.afterTx bytes).rxData = p.rxData := by cases bytes <;> rfl

@[simp] theorem Peripheral.rxErr_afterTx (p : Peripheral) (bytes : List Byte) :
    (p.afterTx bytes).rxErr = p.rxErr := by cases bytes <;> rfl

/-- Setting the receive signals commutes with the transmit signals' change. -/
theorem Peripheral.afterTx_withRx (p : Peripheral) (ready err : Bool) (bytes : List Byte) :
    ({ p with rxReady := ready, rxErr := err } : Peripheral).afterTx bytes =
      { p.afterTx bytes with rxReady := ready, rxErr := err } := by
  cases bytes <;> rfl

theorem State.serveRx_serveTx (s : State) : s.serveTx.serveRx = { s.serveRx.serveTx with issuer := .rxi } := by
  simp only [State.serveRx, State.serveTx, Peripheral.afterTx_withRx, Peripheral.rxErr_afterTx,
    Peripheral.rxData_afterTx]

/-- Settles O31: each handler keeps the other's request, and what the two leave commutes. -/
theorem handlersCommute : Obligations.HandlersCommute := by
  intro s hb hrx htx hready hempty hen
  have hready' : (s.per.afterTx (s.outb.dequeue .outbound true 1).2).rxReady = true :=
    (Peripheral.rxReady_afterTx _ _).trans hready
  refine ⟨s.serveRx, s.serveRx.serveTx, s.serveTx, s.serveTx.serveRx, ?_, ?_, ?_, ?_, ?_⟩
  · exact (exec_rxirq_next_iff _ _).mpr ⟨⟨rfl, hb, hrx, hready⟩, rfl⟩
  · exact (exec_txirq_next_iff _ _).mpr ⟨⟨rfl, hb, htx, hempty, hen⟩, rfl⟩
  · exact (exec_txirq_next_iff _ _).mpr ⟨⟨rfl, hb, htx, hempty, hen⟩, rfl⟩
  · exact (exec_rxirq_next_iff _ _).mpr ⟨⟨rfl, hb, hrx, hready'⟩, rfl⟩
  · rw [State.serveRx_serveTx]

/-! ## A whole activation and a micro-step of the other handler -/

theorem microOp_serveTx (s : State) (p : RxPos) :
    microOp (.rxirq p) s.serveTx = ((microOp (.rxirq p) s).1.serveTx, (microOp (.rxirq p) s).2) := by
  cases p
  case rx1 => simp [microOp, microRxirq, State.readRx, State.serveTx, Peripheral.afterTx_withRx]
  case rx3 => simp [microOp, microRxirq, State.ackRx, State.serveTx, Peripheral.afterTx_withRx]
  all_goals rfl

theorem microOp_serveRx (s : State) (p : TxPos) :
    microOp (.txirq p) s.serveRx = ((microOp (.txirq p) s).1.serveRx, (microOp (.txirq p) s).2) := by
  cases p
  case tx2 bytes => cases bytes <;> rfl
  all_goals rfl

theorem State.advance_serveTx (s : State) (p : RxPos) :
    s.serveTx.advance .rxi (.rxirq p) = (s.advance .rxi (.rxirq p)).serveTx := by
  simp only [State.advance, microOp_serveTx]
  cases (microOp (.rxirq p) s).2 <;> rfl

theorem State.advance_serveRx (s : State) (p : TxPos) :
    s.serveRx.advance .txi (.txirq p) = (s.advance .txi (.txirq p)).serveRx := by
  simp only [State.advance, microOp_serveRx]
  cases (microOp (.txirq p) s).2 <;> rfl

/-- What it takes for the micro-steps of `a` and a whole activation `serve` of another agent to go in either order:
neither touches what the other reads or writes, nor whether the other may run. -/
structure Apart (a : Agent) (serve : State → State) (ready : State → Prop) : Prop where
  agent : ∀ s, (serve s).agent a = s.agent a
  mayMove : ∀ s, (serve s).mayMove a = s.mayMove a
  advance : ∀ s o, o.fits a true = true → (serve s).advance a o = serve (s.advance a o)
  ready : ∀ s o, o.fits a true = true → (ready (s.advance a o) ↔ ready s)

/-- Any number of the agent's micro-steps, and the other's activation before them instead of after. -/
theorem Apart.ticks {a : Agent} {serve : State → State} {ready : State → Prop} (h : Apart a serve ready) (n : Nat)
    {u v : State} (hu : ∀ o, (u.agent a).inflight = some o → o.fits a true = true)
    (hrun : Machine.ticks a n u = .next v) :
    Machine.ticks a n (serve u) = .next (serve v) ∧ (ready v ↔ ready u) := by
  induction n generalizing u with
  | zero => cases hrun; exact ⟨rfl, Iff.rfl⟩
  | succ n ih =>
    cases ht : tick a u with
    | fault r => cases r
    | refused r => simp [Machine.ticks, ht] at hrun
    | next t =>
      simp only [Machine.ticks, ht] at hrun
      obtain ⟨o, ho, hm, rfl⟩ := (tick_next_iff a u t).mp ht
      have hfits := hu o ho
      have hstep : tick a (serve u) = .next (serve (u.advance a o)) :=
        (tick_next_iff _ _ _).mpr ⟨o, h.agent u ▸ ho, (h.mayMove u).trans hm, (h.advance u o hfits).symm⟩
      obtain ⟨hrest, hready⟩ := ih (fun o' ho' => by
        rw [State.inflight_advance_same] at ho'
        exact (microOp_fits o o' u a true ho').trans hfits) hrun
      exact ⟨by simpa only [Machine.ticks, hstep] using hrest, hready.trans (h.ready u o hfits)⟩

theorem apart_rxi_serveTx :
    Apart .rxi State.serveTx fun s => ({ s with issuer := .txi } : State).TxReady where
  agent _ := rfl
  mayMove _ := rfl
  advance s o ho := by cases o <;> simp at ho; exact s.advance_serveTx _
  ready s o ho := by
    cases o <;> simp at ho
    case rxirq p =>
      have htxi : (s.advance .rxi (.rxirq p)).txi = s.txi := s.advance_other .rxi .txi _ (by decide)
      have hper : (microOp (.rxirq p) s).1.per.txEmpty = s.per.txEmpty ∧
          (microOp (.rxirq p) s).1.per.txIrqEn = s.per.txIrqEn := by
        cases p <;> simp [microOp, microRxirq]
      simp [State.TxReady, htxi, hper, microOp_booted]

theorem apart_txi_serveRx :
    Apart .txi State.serveRx fun s => ({ s with issuer := .rxi } : State).RxReady where
  agent _ := rfl
  mayMove _ := rfl
  advance s o ho := by cases o <;> simp at ho; exact s.advance_serveRx _
  ready s o ho := by
    cases o <;> simp at ho
    case txirq p =>
      have hrxi : (s.advance .txi (.txirq p)).rxi = s.rxi := s.advance_other .txi .rxi _ (by decide)
      have hper : (microOp (.txirq p) s).1.per.rxReady = s.per.rxReady := by
        cases p
        case tx2 bytes => cases bytes <;> rfl
        all_goals simp [microOp, microTxirq]
      simp [State.RxReady, hrxi, hper, microOp_booted]

/-- An agent that has just started an operation stands in one it may be inside of. -/
theorem fits_of_launch {i : Instr} {o o' : Op} {s : State} (hl : legality i s = none) (ho : opOf i = some o)
    (h : ((s.launch i o).agent s.issuer).inflight = some o') : o'.fits s.issuer s.booted = true := by
  rw [State.inflight_launch_same] at h
  cases h
  exact (fits_of_legality hl ho).1

/-- Settles O32: the outer handler's micro-steps and the inner whole activation go in either order. -/
theorem nestedActivationEqualsBackToBack : Obligations.NestedActivationEqualsBackToBack := by
  refine ⟨fun n s u v w hst hrun hex => ?_, fun n s u v w hst hrun hex => ?_⟩
  · obtain ⟨hl, rfl⟩ := (State.whenLegal_next_iff _ _ _ _).mp hst
    obtain ⟨ha, hb, -⟩ := (legality_rxirq_iff s).mp hl
    have hfits := fun o => fits_of_launch (o' := o) hl rfl
    rw [ha, hb] at hfits
    obtain ⟨hready, rfl⟩ := (exec_txirq_next_iff _ _).mp hex
    obtain ⟨hticks, hiff⟩ := apart_rxi_serveTx.ticks n hfits hrun
    exact ⟨_, (exec_txirq_next_iff _ _).mpr ⟨hiff.mp hready, rfl⟩, hticks⟩
  · obtain ⟨hl, rfl⟩ := (State.whenLegal_next_iff _ _ _ _).mp hst
    obtain ⟨ha, hb, -⟩ := (legality_txirq_iff s).mp hl
    have hfits := fun o => fits_of_launch (o' := o) hl rfl
    rw [ha, hb] at hfits
    obtain ⟨hready, rfl⟩ := (exec_rxirq_next_iff _ _).mp hex
    obtain ⟨hticks, hiff⟩ := apart_txi_serveRx.ticks n hfits hrun
    exact ⟨_, (exec_rxirq_next_iff _ _).mpr ⟨hiff.mp hready, rfl⟩, hticks⟩

end Sys2Proof.Machine
end

section
/-! PROOF. Batches as runs of their numbered lines on one buffer (40_buffer_ops.md R81, R86, R92): every line leaves
the buffer after it and either the record that goes on or what the batch returned. -/

namespace Sys2Proof.Machine

/-- From the record `r` on the buffer `b`, the lines run with nothing in between until the batch returns `x` and
leaves `b'`. -/
inductive BatchRun {ρ α : Type} (line : ρ → Buffer → Buffer × (ρ ⊕ α)) : ρ → Buffer → Buffer → α → Prop
  | returns {r : ρ} {b b' : Buffer} {x : α} (h : line r b = (b', .inr x)) : BatchRun line r b b' x
  | goes {r r' : ρ} {b b₁ b' : Buffer} {x : α} (h : line r b = (b₁, .inl r')) (hrest : BatchRun line r' b₁ b' x) :
      BatchRun line r b b' x

/-- The lines of `INIT` on one buffer, in the shape of the batches (R81). -/
def InitPos.line (p : InitPos) (b : Buffer) : Buffer × (InitPos ⊕ Unit) :=
  ((p.step b).1, (p.step b).2.elim (.inr ()) .inl)

theorem batchRun_init (b : Buffer) : BatchRun InitPos.line .i1 b b.init () :=
  .goes rfl (.goes rfl (.goes rfl (.returns rfl)))

/-- The loop Q2 to Q5, with `n` bytes accepted so far (R86). -/
theorem batchRun_enqLoop (av : Bool) (payload : List Byte) {n : Nat} {rest : List Byte} (b : Buffer)
    (hrest : payload.drop n = rest) :
    BatchRun (EnqRun.step av payload) ⟨n, .q2⟩ b (b.enqLoop rest).1 (n + (b.enqLoop rest).2) := by
  induction rest generalizing n b with
  | nil =>
    have hend : payload[n]? = none := by simpa using List.drop_eq_nil_iff.mp hrest
    exact .goes (by simp only [EnqRun.step, hend]; rfl) (.returns rfl)
  | cons x rest ih =>
    have hx : payload[n]? = some x := by rw [← List.head?_drop, hrest]; rfl
    have hdrop : payload.drop (n + 1) = rest := by rw [← List.tail_drop, hrest]; rfl
    refine .goes (by simp only [EnqRun.step, hx]; rfl) ?_
    cases hfull : b.isFull with
    | true =>
      simp only [Buffer.enqLoop, Buffer.enq1, hfull, if_true]
      exact .goes (by simp only [EnqRun.step, hfull]; rfl) (.returns rfl)
    | false =>
      have hloop := ih (n := n + 1) (b.e1 x).e2.e3.e4 hdrop
      simp only [Buffer.enqLoop, Buffer.enq1, hfull]
      rw [Nat.add_right_comm] at hloop
      exact .goes (by simp only [EnqRun.step, hfull]; rfl)
        (.goes rfl (.goes rfl (.goes rfl (.goes rfl (.goes rfl (.goes rfl hloop))))))

/-- `ENQ` from Q0 to its return (R86, R94). -/
theorem batchRun_enqueue (av : Bool) (payload : List Byte) (b : Buffer) :
    BatchRun (EnqRun.step av payload) ⟨0, .q0⟩ b (b.enqueue av payload).1 (b.enqueue av payload).2 := by
  cases av with
  | false => exact .returns rfl
  | true =>
    have hloop := batchRun_enqLoop true payload (n := 0) b rfl
    rw [Nat.zero_add] at hloop
    exact .goes rfl (.goes rfl hloop)

/-- The loop P2 to P6, with `k` more bytes to remove (R92). -/
theorem batchRun_deqLoop (f : Inst) (av : Bool) {m k : Nat} {out : List Byte} (b : Buffer) (hk : out.length + k = m) :
    BatchRun (DeqRun.step f av m) ⟨out, .p2⟩ b (b.deqLoop f k).1 (out ++ (b.deqLoop f k).2) := by
  induction k generalizing out b with
  | zero =>
    have hend : ¬ out.length < m := by omega
    refine .goes (by simp only [DeqRun.step, hend]; rfl) (.returns ?_)
    simp [DeqRun.step, Buffer.deqLoop]
  | succ k ih =>
    have hmore : out.length < m := by omega
    refine .goes (by simp only [DeqRun.step, hmore]; rfl) ?_
    cases hempty : b.isEmpty with
    | true =>
      simp only [Buffer.deqLoop, Buffer.deq1, hempty, if_true, List.append_nil]
      exact .goes (by simp only [DeqRun.step, hempty]; rfl) (.returns rfl)
    | false =>
      have hloop := ih (out := out ++ [b.d1 f]) b.d2.d3.d4 (by simp; omega)
      rw [List.append_assoc] at hloop
      simp only [Buffer.deqLoop, Buffer.deq1, hempty]
      exact .goes (by simp only [DeqRun.step, hempty]; rfl)
        (.goes rfl (.goes rfl (.goes rfl (.goes rfl (.goes rfl (.goes rfl (.goes rfl hloop)))))))

/-- `DEQ` from P0 to its return (R92, R94). -/
theorem batchRun_dequeue (f : Inst) (av : Bool) (m : Nat) (b : Buffer) :
    BatchRun (DeqRun.step f av m) ⟨[], .p0⟩ b (b.dequeue f av m).1 (b.dequeue f av m).2 := by
  cases av with
  | false => exact .returns rfl
  | true => exact .goes rfl (.goes rfl (batchRun_deqLoop f true b (Nat.zero_add m)))

end Sys2Proof.Machine
end

section
/-! PROOF. A whole operation is the run of its micro-steps with no other agent in between (20_memory.md R51, log 7). -/

namespace Sys2Proof.Machine

/-! ## Runs of one agent -/

/-- Agent `a` moves any number of times with no other agent in between. -/
abbrev Runs (a : Agent) : State → State → Prop := Relation.ReflTransGen fun s t => tick a s = .next t

theorem Runs.ticks {a : Agent} {s t : State} (h : Runs a s t) : ∃ n, Machine.ticks a n s = .next t := by
  induction h using Relation.ReflTransGen.head_induction_on with
  | refl => exact ⟨0, rfl⟩
  | head hstep _ ih =>
    obtain ⟨n, hn⟩ := ih
    exact ⟨n + 1, by simpa only [Machine.ticks, hstep] using hn⟩

/-- Agent `a` after a micro-step of this result: it stands in the operation, or has returned and left. -/
def State.resume (a : Agent) (q : State × (Op ⊕ Result)) : State :=
  q.2.elim (q.1.hold a) fun r => (q.1.finish a r).leave a

theorem State.advance_eq_resume (s : State) (a : Agent) (o : Op) : s.advance a o = State.resume a (microOp o s) := by
  unfold State.advance State.resume
  cases (microOp o s).2 <;> rfl

theorem State.setAgent_setInitialised (s : State) (a : Agent) (x : AgentState) (f : Inst) (v : Bool) :
    (s.setInitialised f v).setAgent a x = (s.setAgent a x).setInitialised f v := by
  cases a <;> cases f <;> rfl

/-- What an agent is inside of is no part of what its micro-step reads. -/
theorem microOp_setAgent (o : Op) (s : State) (a : Agent) (x : AgentState) :
    microOp o (s.setAgent a x) = ((microOp o s).1.setAgent a x, (microOp o s).2) := by
  cases o with
  | init f p =>
    cases hp : (p.step (s.buf f)).2 <;>
      simp [microOp, microInit, hp, State.setAgent_setBuf, State.setAgent_setInitialised]
  | enq f av payload r => simp [microOp, microEnq, State.setAgent_setBuf]
  | deq f av m r => simp [microOp, microDeq, State.setAgent_setBuf]
  | tinit p => cases p <;> cases a <;> rfl
  | write av payload p => cases p <;> cases a <;> rfl
  | read1 p =>
    cases p with
    | x2 bytes => cases bytes <;> rfl
    | _ => cases a <;> rfl
  | rxirq p => cases p <;> cases a <;> rfl
  | txirq p =>
    cases p with
    | tx2 bytes => cases bytes <;> rfl
    | _ => cases a <;> rfl

/-- The agent stands before a micro-step of `o`, and takes it. -/
theorem tick_hold {a : Agent} {s : State} (hm : s.mayMove a = true) (o : Op) :
    tick a (s.hold a o) = .next (State.resume a (microOp o s)) := by
  refine (tick_next_iff _ _ _).mpr ⟨o, by simp, by simpa [State.mayMove] using hm, ?_⟩
  rw [State.advance_eq_resume, State.hold_eq, microOp_setAgent]
  unfold State.resume
  cases (microOp o s).2 <;> cases a <;> rfl

@[simp] theorem State.setBuf_setBuf (s : State) (f : Inst) (b b' : Buffer) :
    (s.setBuf f b).setBuf f b' = s.setBuf f b' := by cases f <;> rfl

section
variable {a : Agent} {s t : State}

/-- A run goes on behind a micro-step. -/
theorem Runs.go {o : Op} {q : State × (Op ⊕ Result)} (hm : s.mayMove a = true) (hq : microOp o s = q)
    (h : Runs a (State.resume a q) t) : Runs a (s.hold a o) t :=
  .head (tick_hold hm o) (hq ▸ h)

/-- A batch inside an operation: its lines are micro-steps of the operation `wrap`, and its return leads to `out`. -/
theorem Runs.batch {ρ α : Type} {line : ρ → Buffer → Buffer × (ρ ⊕ α)} {f : Inst} {wrap : ρ → Op}
    {out : α → State → State × (Op ⊕ Result)}
    (hmicro : ∀ r s, microOp (wrap r) s = (line r (s.buf f)).2.elim
      (fun r' => (s.setBuf f (line r (s.buf f)).1, .inl (wrap r'))) fun x => out x (s.setBuf f (line r (s.buf f)).1))
    {r : ρ} {b b' : Buffer} {x : α} (hrun : BatchRun line r b b' x) (hm : s.mayMove a = true) (hb : s.buf f = b)
    (h : Runs a (State.resume a (out x (s.setBuf f b'))) t) : Runs a (s.hold a (wrap r)) t := by
  induction hrun generalizing s with
  | returns hline =>
    refine .go hm (hmicro _ s) ?_
    rw [hb, hline]
    exact h
  | goes hline _ ih =>
    refine .go hm (hmicro _ s) ?_
    rw [hb, hline]
    refine ih (by simpa [State.mayMove] using hm) (by simp) ?_
    simpa using h

/-! ## The lines of a batch as micro-steps of the operation around it -/

theorem microOp_init_line (f : Inst) (p : InitPos) (s : State) :
    microOp (.init f p) s = (p.line (s.buf f)).2.elim
      (fun p' => (s.setBuf f (p.line (s.buf f)).1, .inl (.init f p')))
      fun _ => ((s.setBuf f (p.line (s.buf f)).1).setInitialised f true, .inr .nothing) := by
  cases p <;> rfl

theorem microOp_enq_line (f : Inst) (av : Bool) (payload : List Byte) (r : EnqRun) (s : State) :
    microOp (.enq f av payload r) s = (r.step av payload (s.buf f)).2.elim
      (fun r' => (s.setBuf f (r.step av payload (s.buf f)).1, .inl (.enq f av payload r')))
      fun n => (s.setBuf f (r.step av payload (s.buf f)).1, .inr (.accepted n)) := by
  cases h : (r.step av payload (s.buf f)).2 <;> simp [microOp, microEnq, h]

theorem microOp_deq_line (f : Inst) (av : Bool) (m : Nat) (r : DeqRun) (s : State) :
    microOp (.deq f av m r) s = (r.step f av m (s.buf f)).2.elim
      (fun r' => (s.setBuf f (r.step f av m (s.buf f)).1, .inl (.deq f av m r')))
      fun out => (s.setBuf f (r.step f av m (s.buf f)).1, .inr (.removed out out.length)) := by
  cases h : (r.step f av m (s.buf f)).2 <;> simp [microOp, microDeq, h]

theorem microOp_t1_line (p : InitPos) (s : State) :
    microOp (.tinit (.t1 p)) s = (p.line (s.buf .inbound)).2.elim
      (fun p' => (s.setBuf .inbound (p.line (s.buf .inbound)).1, .inl (.tinit (.t1 p'))))
      fun _ => (s.setBuf .inbound (p.line (s.buf .inbound)).1, .inl (.tinit (.t2 .i1))) := by
  cases p <;> rfl

theorem microOp_t2_line (p : InitPos) (s : State) :
    microOp (.tinit (.t2 p)) s = (p.line (s.buf .outbound)).2.elim
      (fun p' => (s.setBuf .outbound (p.line (s.buf .outbound)).1, .inl (.tinit (.t2 p'))))
      fun _ => (s.setBuf .outbound (p.line (s.buf .outbound)).1, .inl (.tinit .t3)) := by
  cases p <;> rfl

theorem microOp_w2_line (av : Bool) (payload : List Byte) (r : EnqRun) (s : State) :
    microOp (.write av payload (.w2 r)) s = (r.step true payload (s.buf .outbound)).2.elim
      (fun r' => (s.setBuf .outbound (r.step true payload (s.buf .outbound)).1, .inl (.write av payload (.w2 r'))))
      fun _ => (s.setBuf .outbound (r.step true payload (s.buf .outbound)).1, .inl (.write av payload .w3)) := by
  cases h : (r.step true payload s.outb).2 <;> simp [microOp, microWrite, h]

theorem microOp_x1_line (r : DeqRun) (s : State) :
    microOp (.read1 (.x1 r)) s = (r.step .inbound true 1 (s.buf .inbound)).2.elim
      (fun r' => (s.setBuf .inbound (r.step .inbound true 1 (s.buf .inbound)).1, .inl (.read1 (.x1 r'))))
      fun out => (s.setBuf .inbound (r.step .inbound true 1 (s.buf .inbound)).1, .inl (.read1 (.x2 out))) := by
  cases h : (r.step .inbound true 1 s.inb).2 <;> simp [microOp, microRead1, h]

theorem microOp_rx6_line (x : Byte) (r : EnqRun) (s : State) :
    microOp (.rxirq (.rx6 x r)) s = (r.step true [x] (s.buf .inbound)).2.elim
      (fun r' => (s.setBuf .inbound (r.step true [x] (s.buf .inbound)).1, .inl (.rxirq (.rx6 x r'))))
      fun _ => (s.setBuf .inbound (r.step true [x] (s.buf .inbound)).1, .inl (.rxirq .rx7)) := by
  cases h : (r.step true [x] s.inb).2 <;> simp [microOp, microRxirq, h]

theorem microOp_tx1_line (r : DeqRun) (s : State) :
    microOp (.txirq (.tx1 r)) s = (r.step .outbound true 1 (s.buf .outbound)).2.elim
      (fun r' => (s.setBuf .outbound (r.step .outbound true 1 (s.buf .outbound)).1, .inl (.txirq (.tx1 r'))))
      fun out => (s.setBuf .outbound (r.step .outbound true 1 (s.buf .outbound)).1, .inl (.txirq (.tx2 out))) := by
  cases h : (r.step .outbound true 1 s.outb).2 <;> simp [microOp, microTxirq, h]

/-! ## The operations -/

theorem runs_init (f : Inst) (hm : s.mayMove .fg = true) :
    Runs .fg (s.hold .fg (.init f .i1))
      (((s.setBuf f (s.buf f).init).setInitialised f true).finish .fg .nothing) :=
  .batch (out := fun _ s' => (s'.setInitialised f true, .inr .nothing)) (microOp_init_line f) (batchRun_init _) hm rfl
    .refl

theorem runs_enq (f : Inst) (av : Bool) (payload : List Byte) (hm : s.mayMove .fg = true) :
    Runs .fg (s.hold .fg (.enq f av payload ⟨0, .q0⟩))
      ((s.setBuf f ((s.buf f).enqueue av payload).1).finish .fg (.accepted ((s.buf f).enqueue av payload).2)) :=
  .batch (out := fun n s' => (s', .inr (.accepted n))) (microOp_enq_line f av payload) (batchRun_enqueue ..) hm rfl
    .refl

theorem runs_deq (f : Inst) (av : Bool) (m : Nat) (hm : s.mayMove .fg = true) :
    Runs .fg (s.hold .fg (.deq f av m ⟨[], .p0⟩))
      ((s.setBuf f ((s.buf f).dequeue f av m).1).finish .fg
        (.removed ((s.buf f).dequeue f av m).2 ((s.buf f).dequeue f av m).2.length)) :=
  .batch (out := fun out s' => (s', .inr (.removed out out.length))) (microOp_deq_line f av m)
    (batchRun_dequeue ..) hm rfl .refl

theorem runs_tinit (hm : s.mayMove .fg = true) :
    Runs .fg (s.hold .fg (.tinit (.t1 .i1)))
      ((((s.setBuf .inbound s.inb.init).setBuf .outbound s.outb.init).disableTx.boot).finish .fg .nothing) :=
  .batch (out := fun _ s' => (s', .inl (.tinit (.t2 .i1)))) microOp_t1_line (batchRun_init _) hm rfl <|
  .batch (out := fun _ s' => (s', .inl (.tinit .t3))) microOp_t2_line (batchRun_init _) hm rfl <|
  .go (o := .tinit .t3) hm rfl <| .go (o := .tinit .t4) hm rfl .refl

theorem runs_write_null (payload : List Byte) (hm : s.mayMove .fg = true) :
    Runs .fg (s.hold .fg (.write false payload .w0)) (s.finish .fg (.status .fail)) :=
  .go hm rfl .refl

/-- W0 leads to the wait at W1, where `exec` stops without room (41_transport_foreground.md R115). -/
theorem runs_write_held (payload : List Byte) (hm : s.mayMove .fg = true) :
    Runs .fg (s.hold .fg (.write true payload .w0)) (s.hold .fg (.write true payload .w1)) :=
  .go hm rfl .refl

theorem runs_write_room {payload : List Byte} (hroom : payload.length ≤ s.outb.free) (hm : s.mayMove .fg = true) :
    Runs .fg (s.hold .fg (.write true payload .w0)) ((s.writeOut payload).finish .fg (.status .ok)) := by
  refine (runs_write_held payload hm).trans ?_
  refine Runs.go (q := (s, .inl (.write true payload (.w2 ⟨0, .q0⟩)))) hm (by simp [microOp, microWrite, hroom]) ?_
  refine .batch (out := fun _ s' => (s', .inl (.write true payload .w3))) (microOp_w2_line true payload)
    (batchRun_enqueue ..) hm rfl ?_
  simp only [State.writeOut, State.buf_outbound]
  generalize hs' : s.setBuf .outbound (s.outb.enqueue true payload).1 = s'
  have hm' : s'.mayMove .fg = true := by rw [← hs']; exact hm
  cases hen : s'.per.transmitActive with
  | true =>
    exact .go (q := (s', .inl (.write true payload .w5))) hm' (by simp [microOp, microWrite, hen])
      (.go hm' rfl .refl)
  | false =>
    exact .go (q := (s', .inl (.write true payload .w4))) hm' (by simp [microOp, microWrite, hen])
      (.go hm' rfl (.go (s := s'.enableTx) (o := .write true payload .w5) hm' rfl .refl))

theorem runs_read1 (hm : s.mayMove .fg = true) :
    Runs .fg (s.hold .fg (.read1 (.x1 ⟨[], .p0⟩)))
      ((s.setBuf .inbound (s.inb.dequeue .inbound true 1).1).finish .fg
        (.byte (s.inb.dequeue .inbound true 1).2.head?)) := by
  refine .batch (out := fun out s' => (s', .inl (.read1 (.x2 out)))) microOp_x1_line (batchRun_dequeue ..) hm rfl ?_
  rw [State.buf_inbound]
  cases (s.inb.dequeue .inbound true 1).2 with
  | nil => exact .go (o := .read1 (.x2 [])) hm rfl .refl
  | cons x rest => exact .go (o := .read1 (.x2 (x :: rest))) hm rfl <| .go (o := .read1 (.x3 x)) hm rfl .refl

/-- The activation entered at the start is left with the return, so the stack ends as it was (60_exceptions.md R158,
R159). -/
theorem runs_rxirq (hex : exec .rxirq s = .next t) : Runs s.issuer (s.launch .rxirq (.rxirq .rx1)) t := by
  obtain ⟨hl, rfl⟩ := (State.whenLegal_next_iff _ _ _ _).mp hex
  obtain ⟨ha, -⟩ := (legality_rxirq_iff s).mp hl
  rw [ha, State.launch, ha]
  refine Runs.go (s := s.enter .rxi) rfl rfl ?_
  refine Runs.go (s := (s.enter .rxi).readRx) (o := .rxirq (.rx2 s.per.rxData s.per.rxErr)) rfl rfl ?_
  generalize s.per.rxData = x, s.per.rxErr = err
  cases err with
  | true =>
    exact .go (s := (s.enter .rxi).readRx) (o := .rxirq .rx3) rfl rfl <|
      .go (s := (s.enter .rxi).readRx.ackRx) (o := .rxirq .rx4) rfl rfl .refl
  | false =>
    simp only [State.storeRx, State.inb_readRx]
    by_cases hfull : s.inb.isFull = true
    · refine .go (s := (s.enter .rxi).readRx) (o := .rxirq (.rx5 x)) (q := ((s.enter .rxi).readRx, .inr .nothing)) rfl
        (by simp [microOp, microRxirq, hfull]) ?_
      simp only [hfull]
      exact .refl
    · refine .go (s := (s.enter .rxi).readRx) (o := .rxirq (.rx5 x))
        (q := ((s.enter .rxi).readRx, .inl (.rxirq (.rx6 x ⟨0, .q0⟩)))) rfl (by simp [microOp, microRxirq, hfull]) ?_
      simp only [hfull]
      exact .batch (out := fun _ s' => (s', .inl (.rxirq .rx7))) (microOp_rx6_line x)
        (batchRun_enqueue ..) rfl rfl (.go (o := .rxirq .rx7) rfl rfl .refl)

theorem runs_txirq (hex : exec .txirq s = .next t) :
    Runs s.issuer (s.launch .txirq (.txirq (.tx1 ⟨[], .p0⟩))) t := by
  obtain ⟨hl, rfl⟩ := (State.whenLegal_next_iff _ _ _ _).mp hex
  obtain ⟨ha, -⟩ := (legality_txirq_iff s).mp hl
  rw [ha, State.launch, ha]
  refine Runs.batch (s := s.enter .txi) (out := fun out s' => (s', .inl (.txirq (.tx2 out)))) microOp_tx1_line
    (batchRun_dequeue ..) rfl rfl ?_
  rw [State.buf_outbound, State.outb_enter]
  cases (s.outb.dequeue .outbound true 1).2 with
  | nil =>
    exact .go (o := .txirq (.tx2 [])) rfl rfl <| .go (o := .txirq .tx5) rfl rfl <|
      .go (o := .txirq .tx6) rfl rfl .refl
  | cons x rest =>
    exact .go (o := .txirq (.tx2 (x :: rest))) rfl rfl <| .go (o := .txirq (.tx3 x)) rfl rfl <|
      .go (o := .txirq .tx4) rfl rfl .refl

/-- Every operation but the observers runs by its micro-steps, from its record on, to what `exec` answers. -/
theorem exec_runs {i : Instr} {o : Op} (ho : opOf i = some o) (hex : exec i s = .next t) :
    Runs s.issuer (s.launch i o) t := by
  cases i <;> cases ho
  case rxirq => exact runs_rxirq hex
  case txirq => exact runs_txirq hex
  all_goals obtain ⟨hl, rfl⟩ := (State.whenLegal_next_iff _ _ _ _).mp hex
  case init f =>
    obtain ⟨ha, -, -, hact⟩ := (legality_init_iff f s).mp hl
    have hrun := runs_init (s := s.setInitialised f false) f (by simp [State.mayMove, hact])
    rw [ha, State.launch, ha]
    cases f <;> exact hrun
  case enq f av payload =>
    obtain ⟨ha, -, -, -, hact⟩ := (legality_enq_iff f av payload s).mp hl
    rw [ha, State.launch, ha]
    exact runs_enq f av payload (by simp [State.mayMove, hact])
  case deq f av m =>
    obtain ⟨ha, -, -, -, hact⟩ := (legality_deq_iff f av m s).mp hl
    rw [ha, State.launch, ha]
    exact runs_deq f av m (by simp [State.mayMove, hact])
  case tinit =>
    obtain ⟨ha, -, -, hact⟩ := (legality_tinit_iff s).mp hl
    rw [ha, State.launch, ha]
    exact runs_tinit (s := s.unready .tinit) (by simp [State.mayMove, hact])
  case write av payload =>
    obtain ⟨ha, -, -, hact⟩ := (legality_write_iff av payload s).mp hl
    have hm : s.mayMove .fg = true := by simp [State.mayMove, hact]
    rw [ha, State.launch, ha]
    split
    · rename_i hav
      subst hav
      split
      · rename_i hroom
        exact runs_write_room hroom hm
      · exact runs_write_held payload hm
    · rename_i hav
      rw [Bool.eq_false_iff.mpr hav]
      exact runs_write_null payload hm
  case read1 =>
    obtain ⟨ha, -, -, hact⟩ := (legality_read1_iff s).mp hl
    rw [ha, State.launch, ha]
    exact runs_read1 (by simp [State.mayMove, hact])

end

/-- Settles O33: an observer is one micro-step; every other operation runs from its record to its return, or to the
hold of `WRITE`. -/
theorem execIsTheUninterruptedMicroRun : Obligations.ExecIsTheUninterruptedMicroRun := by
  intro i s t hex
  cases ho : opOf i with
  | none => exact ⟨t, 0, by simpa only [start, ho] using hex, rfl⟩
  | some o =>
    obtain ⟨hl, -⟩ := exec_next_frame i s t hex
    obtain ⟨n, hn⟩ := (exec_runs ho hex).ticks
    exact ⟨s.launch i o, n, by simp only [start, ho, State.whenLegal_of_legal _ _ _ hl], hn⟩

end Sys2Proof.Machine
end

section
/-! PROOF. The producer stores and the consumer reads each in its own slot (20_memory.md R44, R54; 10_state.md R33). -/

namespace Sys2Proof.Machine

section
variable {s : State} {a : Agent} {o : Op} {f : Inst}

/-- Who is inside an `ENQ` on `f` is the producer of `f`. -/
theorem State.RolesOk.producing_of_enqOn (h : s.RolesOk) (ho : (s.agent a).inflight = some o)
    {x : EnqRun × List Byte} (hx : o.enqOn f = some x) : s.producing f = some x := by
  rw [h.producing_eq, ← Op.producer_of_fits (h a o ho) hx, ho]
  exact hx

/-- Who is inside a `DEQ` on `f` is the consumer of `f`. -/
theorem State.RolesOk.consuming_of_deqOn (h : s.RolesOk) (ho : (s.agent a).inflight = some o)
    {r : DeqRun} (hr : o.deqOn f = some r) : s.consuming f = some r := by
  rw [h.consuming_eq, ← Op.consumer_of_fits (h a o ho) hr, ho]
  exact hr

/-- Inside an `ENQ` on `f` a micro-step is the batch's next line. -/
theorem microOp_buf_of_enqOn {r : EnqRun} {payload : List Byte} (hx : o.enqOn f = some (r, payload)) :
    ∃ av, (microOp o s).1.buf f = (r.step av payload (s.buf f)).1 := by
  rcases Op.enqOn_eq_some hx with ⟨av, rfl⟩ | ⟨rfl, av, rfl⟩ | ⟨rfl, x, rfl, rfl⟩
  · exact ⟨av, by simp [microOp, microEnq]⟩
  · exact ⟨true, rfl⟩
  · exact ⟨true, rfl⟩

/-- Inside a `DEQ` on `f` a micro-step that goes on stays inside it, at the batch's next line. -/
theorem microOp_of_deqOn {r r' : DeqRun} (hr : o.deqOn f = some r)
    (hgo : ∀ av m, (r.step f av m (s.buf f)).2 = .inl r') :
    (∃ av m, (microOp o s).1.buf f = (r.step f av m (s.buf f)).1) ∧
    ∃ o', (microOp o s).2 = .inl o' ∧ o'.deqOn f = some r' := by
  rcases Op.deqOn_eq_some hr with ⟨av, m, rfl⟩ | ⟨rfl, rfl⟩ | ⟨rfl, rfl⟩
  · exact ⟨⟨av, m, by simp [microOp, microDeq]⟩, .deq f av m r', by simp [microOp, microDeq, hgo],
      by simp [Op.deqOn]⟩
  · have hgo' : (r.step .inbound true 1 s.inb).2 = .inl r' := hgo true 1
    exact ⟨⟨true, 1, rfl⟩, .read1 (.x1 r'), by simp [microOp, microRead1, hgo'], rfl⟩
  · have hgo' : (r.step .outbound true 1 s.outb).2 = .inl r' := hgo true 1
    exact ⟨⟨true, 1, rfl⟩, .txirq (.tx1 r'), by simp [microOp, microTxirq, hgo'], rfl⟩

end

/-! ## The slots of one buffer -/

/-- E1 has seen room, so its slot holds no unread byte. -/
theorem RingOk.storing_slot_free {b : Buffer} {r : EnqRun} {payload : List Byte} {c : Option DeqRun} {x : Byte}
    (h : RingOk b (some (r, payload)) c) (hw : b.widx < b.cap) (hr : r.pos = .e1 x) {j : Nat} (hj : j < b.count) :
    (b.oldest c + j) % b.cap ≠ b.widx := by
  have hp := h.producer
  simp only [ProducerOk, hr] at hp
  obtain ⟨-, hroom⟩ := hp
  exact h.unread_ne_widx hw (by simp [prodLag, enqLag, hr]) hroom hj

/-- No move on an initialised buffer changes what an unread slot holds. -/
theorem InstMove.keeps_unread {f : Inst} {b b' : Buffer} {p p' : Option (EnqRun × List Byte)} {c c' : Option DeqRun}
    (hmove : InstMove f none b b' p p' c c') (h : RingOk b p c) (hw : b.widx < b.cap) {j : Nat} (hj : j < b.count) :
    memRead b'.mem ((b.oldest c + j) % b.cap) = memRead b.mem ((b.oldest c + j) % b.cap) := by
  cases hmove with
  | stays hb _ _ => rw [hb]
  | inits q hi => cases hi
  | begins payload _ _ hb _ _ => rw [hb]
  | consumes av m r _ hb _ _ => rw [hb, r.mem_step f av m b]
  | produces av r payload hp hb _ _ =>
    subst hp hb
    rcases r.step_buffer_cases av payload b with he | ⟨x, hpos, he⟩ | ⟨-, he⟩ | ⟨-, he⟩ | ⟨-, he⟩ <;> rw [he]
    case inr.inl => exact memRead_memWrite_of_ne _ _ (h.storing_slot_free hw hpos hj)
    all_goals rfl

/-- The oldest unread byte is the head of the queue. -/
theorem Buffer.head?_unread {f : Inst} {b : Buffer} {c : Option DeqRun} (hpos : 0 < b.count) {x : Byte}
    (hx : memRead b.mem (b.oldest c) = some x) : (b.unread f c).head? = some x := by
  have hslot : b.readSlot f (b.oldest c) = x := by simp only [Buffer.readSlot, hx]
  simp [Buffer.unread, List.head?_range, hpos.ne', Nat.mod_eq_of_lt (b.oldest_lt c), hslot]

/-- Settles O40: E1 stores behind the unread bytes, D1 reads the oldest of them, and no other line touches storage. -/
theorem sidesNeverShareASlot : Obligations.SidesNeverShareASlot := by
  intro a s t f h hf ht
  obtain ⟨o, ho, -, rfl⟩ := (tick_next_iff a s t).mp ht
  have hring := h.ring f hf
  obtain ⟨hw, hr, -⟩ := h.inRange f
  refine ⟨fun j hj => ?_, fun o' r p x ho' hx hpos => ?_, fun o' r ho' hr' hpos => ?_⟩
  · have hinit : o.initOn f = none := by
      by_contra hi
      exact absurd ((h.underWay ho f).initialising hi) (by simp [hf])
    have hmove := h.roles.instMove_advance ho f
    rw [hinit] at hmove
    exact hmove.keeps_unread hring hw hj
  · cases ho.symm.trans ho'
    rw [h.roles.producing_of_enqOn ho hx] at hring
    obtain ⟨av, hbuf⟩ := microOp_buf_of_enqOn (s := s) hx
    have he1 : ((s.advance a o).buf f) = (s.buf f).e1 x := by
      rw [State.buf_advance, hbuf]
      simp only [EnqRun.step, hpos]
    rw [he1]
    exact ⟨memRead_memWrite_same _ _ _, fun i hi => memRead_memWrite_of_ne _ _ hi,
      fun j hj => hring.storing_slot_free hw hpos hj⟩
  · cases ho.symm.trans ho'
    have hcons := h.roles.consuming_of_deqOn ho hr'
    rw [hcons] at hring
    have hcount := hring.consumer
    simp only [ConsumerOk, hpos] at hcount
    have hlag : consLag (some r) = 0 := by simp [consLag, deqLag, hpos]
    have hread := hring.read_oldest f hr hlag hcount
    obtain ⟨⟨av, m, hbuf⟩, o'', hgo, hon⟩ := microOp_of_deqOn (s := s)
      (r' := { r with pos := .d2 ((s.buf f).d1 f) }) hr' fun av m => by simp only [DeqRun.step, hpos]
    refine ⟨(s.buf f).d1 f, o'', ?_, ?_, ?_, hon, ?_⟩
    · rw [← hread, (s.buf f).oldest_of_no_lag hr hlag]
    · rw [State.queue, hcons]
      exact Buffer.head?_unread hcount hread
    · rw [State.inflight_advance_same, hgo]
      rfl
    · rw [State.buf_advance, hbuf, r.mem_step f av m _]

end Sys2Proof.Machine
end

section
/-! PROOF. What whole batches do to the queue of a buffer: `ENQ` appends what there is room for, `DEQ` takes from the
front (10_state.md R22, 40_buffer_ops.md R86, R92; 20_memory.md R58). -/

namespace Sys2Proof.Machine

section
variable {b : Buffer} {p : Option (EnqRun × List Byte)} {c : Option DeqRun}

/-- A whole `ENQ1` puts its byte behind the unread ones. -/
theorem RingOk.enq1 (h : RingOk b none c) (hr : b.InRange) (hroom : b.count < b.cap) (x : Byte) :
    RingOk (b.e1 x).e2.e3.e4 none c ∧ (b.e1 x).e2.e3.e4.InRange ∧
    ∀ f, (b.e1 x).e2.e3.e4.unread f c = b.unread f c ++ [x] := by
  obtain ⟨hw, hridx, -⟩ := hr
  have hready : RingOk b (some (⟨0, .e1 x⟩, [x])) c := h.with_producer rfl ⟨rfl, hroom⟩
  have hcounting : RingOk (b.e1 x).e2 (some (⟨0, .e3⟩, [x])) c := (hready.e1 hw).e2 hw
  refine ⟨(hcounting.e3.with_full _).with_producer rfl trivial, ⟨b.advance_lt _, hridx, hroom⟩, fun f => ?_⟩
  have hstored : (b.e1 x).unread f c = b.unread f c :=
    Buffer.unread_congr f rfl rfl rfl fun j hj => memRead_memWrite_of_ne _ _ (h.unread_ne_widx hw rfl hroom hj)
  obtain ⟨y, hy, hqueue⟩ := hcounting.unread_e3 f rfl
  cases hy
  calc (b.e1 x).e2.e3.e4.unread f c = (b.e1 x).e2.unread f c ++ [x] := hqueue
    _ = b.unread f c ++ [x] := congrArg (· ++ [x]) hstored

/-- A whole `DEQ1` takes the oldest unread byte. -/
theorem RingOk.deq1 (h : RingOk b p none) (hr : b.InRange) (hpos : 0 < b.count) :
    RingOk b.d2.d3.d4 p none ∧ b.d2.d3.d4.InRange ∧
    ∀ f, b.unread f none = b.d1 f :: b.d2.d3.d4.unread f none := by
  obtain ⟨hw, hridx, hn⟩ := hr
  have htaking : ∀ f, RingOk b.d2 p (some ⟨[], .d3 (b.d1 f)⟩) := fun f =>
    RingOk.d2 (h.with_consumer rfl ⟨hpos, h.read_oldest f hridx rfl hpos⟩) hridx
  have htaken := (htaking .inbound).d3 (b.advance_lt _)
  refine ⟨(htaken.with_full _).with_consumer rfl trivial, ⟨hw, b.advance_lt _, (Nat.sub_le _ _).trans hn⟩, fun f => ?_⟩
  have hqueue := (htaking f).unread_d3 f (b.advance_lt _) (c' := none) rfl
  have hmoved : b.d2.unread f (some ⟨[], .d3 (b.d1 f)⟩) = b.unread f none :=
    Buffer.unread_congr f rfl rfl (b.oldest_d2 (b.d1 f) hridx) fun _ _ => rfl
  exact hmoved.symm.trans hqueue

/-- With room for the whole payload, `ENQ` puts it behind the unread bytes, in order. -/
theorem RingOk.enqLoop (h : RingOk b none c) (hr : b.InRange) {payload : List Byte}
    (hroom : b.count + payload.length ≤ b.cap) :
    RingOk (b.enqLoop payload).1 none c ∧ (b.enqLoop payload).1.InRange ∧
    ∀ f, (b.enqLoop payload).1.unread f c = b.unread f c ++ payload := by
  induction payload generalizing b with
  | nil => exact ⟨h, hr, fun f => (List.append_nil _).symm⟩
  | cons x rest ih =>
    rw [List.length_cons] at hroom
    have hlt : b.count < b.cap := by omega
    have hnf : b.isFull = false := Bool.eq_false_iff.mpr fun he => hlt.ne (b.isFull_iff.mp he)
    obtain ⟨hring, hrange, hone⟩ := h.enq1 hr hlt x
    have hroom' : b.count + 1 + rest.length ≤ b.cap := by omega
    obtain ⟨hring', hrange', hrest⟩ := ih hring hrange hroom'
    have hloop : (b.enqLoop (x :: rest)).1 = ((b.e1 x).e2.e3.e4.enqLoop rest).1 := by
      simp [Buffer.enqLoop, Buffer.enq1, hnf]
    rw [hloop]
    exact ⟨hring', hrange', fun f => by rw [hrest, hone, List.append_assoc, List.singleton_append]⟩

/-- `DEQ` returns the oldest unread bytes, in order, as many as there are up to its bound. -/
theorem RingOk.deqLoop (h : RingOk b p none) (hr : b.InRange) (f : Inst) (n : Nat) :
    (b.deqLoop f n).2 = (b.unread f none).take n := by
  induction n generalizing b with
  | zero => rfl
  | succ n ih =>
    by_cases he : b.count = 0
    · simp [Buffer.deqLoop, Buffer.deq1, b.isEmpty_iff.mpr he, Buffer.unread, he]
    · have hne : b.isEmpty = false := Bool.eq_false_iff.mpr fun h0 => he (b.isEmpty_iff.mp h0)
      obtain ⟨hring, hrange, hone⟩ := h.deq1 hr (Nat.pos_of_ne_zero he)
      rw [hone f, List.take_succ_cons, ← ih hring hrange]
      simp [Buffer.deqLoop, Buffer.deq1, hne]

end

/-- Settles O15: on an empty buffer the queue after the `ENQ` is the payload, and the `DEQ` takes all of it. -/
theorem enqueuedBytesComeBackInOrder : Obligations.EnqueuedBytesComeBackInOrder := by
  intro f p s hready hrange hring hempty hlen
  obtain ⟨⟨ha, hfg, hact⟩, hb, hinit⟩ := hready
  obtain ⟨hring', hrange', hqueue⟩ := hring.enqLoop hrange (payload := p) (by omega)
  obtain ⟨-, -, hacc, hcount⟩ := (s.buf f).enqLoop_registers p (by omega)
  have hbytes : (((s.buf f).enqLoop p).1.deqLoop f p.length).2 = p := by
    rw [hring'.deqLoop hrange', hqueue]
    simp [Buffer.unread, hempty]
  obtain ⟨-, -, -, -, hleft⟩ := ((s.buf f).enqLoop p).1.deqLoop_registers f p.length
  refine ⟨_, _, State.whenLegal_of_legal _ _ _ ((legality_enq_iff f true p s).mpr ⟨ha, hb, hinit, hfg, hact⟩),
    State.whenLegal_of_legal _ _ _ ((legality_deq_iff f true p.length _).mpr ?_), ?_, ?_⟩
  · simp [ha, hb, hinit, hact]
  · simp [ha, Buffer.enqueue, Buffer.dequeue, hbytes]
  · rw [hbytes] at hleft
    have hzero : (((s.buf f).enqLoop p).1.deqLoop f p.length).1.count = 0 := by omega
    simpa [ha, Buffer.enqueue, Buffer.dequeue] using hzero

end Sys2Proof.Machine
end

section
/-! PROOF. The encoding (30_encoding.md): the fields of a code (R61, R62), the decoder and the encoder as inverses
(R64, R65), and the reserved codes (R67). -/

namespace Sys2Proof

/-! ## The fields of a code -/

/-- A code is its three fields (R61). -/
theorem code_eq_of_fields {a b : Code} (hrsv : rsvField a = rsvField b) (hsel : selField a = selField b)
    (hop : opField a = opField b) : a = b := by
  simp only [rsvField, selField, opField] at hrsv hsel hop
  have hbit : a.toNat / 16 % 2 = 1 ↔ b.toNat / 16 % 2 = 1 := by simpa using hsel
  bv_omega

theorem opField_lt (cc : Code) : opField cc < 16 := Nat.mod_lt _ (by decide)

theorem toNat_codeB_outbound {op : Code} (h : op.toNat < 16) : (codeB op .outbound).toNat = 16 + op.toNat := by
  simp only [codeB, BitVec.toNat_or]
  rw [Nat.or_comm]
  exact (Nat.two_pow_add_eq_or_of_lt (i := 4) h 1).symm

theorem rsvField_codeB {op : Code} (f : Inst) (h : op.toNat < 16) : rsvField (codeB op f) = 0 := by
  cases f with
  | inbound => exact Nat.div_eq_of_lt (show op.toNat < 32 by omega)
  | outbound => simp only [rsvField, toNat_codeB_outbound h]; omega

theorem opField_codeB {op : Code} (f : Inst) (h : op.toNat < 16) : opField (codeB op f) = op.toNat := by
  cases f with
  | inbound => exact Nat.mod_eq_of_lt h
  | outbound => simp only [opField, toNat_codeB_outbound h]; omega

/-- `SEL` names the buffer (R62). -/
theorem instOfSel_codeB {op : Code} (f : Inst) (h : op.toNat < 16) : instOfSel (selField (codeB op f)) = f := by
  cases f with
  | inbound => simp [codeB, selField, instOfSel, Nat.div_eq_of_lt h]
  | outbound =>
    have hbit : (16 + op.toNat) / 16 % 2 = 1 := by omega
    simp only [selField, toNat_codeB_outbound h, hbit]
    rfl

/-- A code of format B is `OP` with its own `SEL`. -/
theorem codeB_of_fields {cc op : Code} (hrsv : rsvField cc = 0) (hop : opField cc = op.toNat) :
    codeB op (instOfSel (selField cc)) = cc := by
  have hlt : op.toNat < 16 := hop ▸ opField_lt cc
  have hinst : ∀ a b : Bool, instOfSel a = instOfSel b → a = b := by decide
  exact code_eq_of_fields ((rsvField_codeB _ hlt).trans hrsv.symm) (hinst _ _ (instOfSel_codeB _ hlt))
    ((opField_codeB _ hlt).trans hop.symm)

/-- A code of format T or E is `OP` alone. -/
theorem code_of_fields {cc op : Code} (hrsv : rsvField cc = 0) (hop : opField cc = op.toNat)
    (hsel : selField cc = false) : op = cc := by
  have hcode := codeB_of_fields hrsv hop
  rwa [hsel] at hcode

/-! ## Decoding -/

/-- The operation with the operands presented beside its code; an operation that takes none is left alone (R65). -/
def Instr.withOperands (o : Operands) : Instr → Instr
  | .enq f _ _ => .enq f o.av o.payload
  | .deq f _ _ => .deq f o.av o.maxCount
  | .write _ _ => .write o.av o.payload
  | i => i

theorem Instr.withOperands_operandsOf (i : Instr) : i.withOperands (operandsOf i) = i := by
  cases i <;> rfl

/-- The encoder's code selects its operation, whatever operands stand beside it (R64, R65). -/
theorem decode_codeOf (i : Instr) (o : Operands) : decode ⟨codeOf i, o⟩ = .instr (i.withOperands o) := by
  cases i with
  | init | enq | deq | empty | full | len =>
    simp [decode, codeOf, rsvField_codeB, opField_codeB, instOfSel_codeB, Instr.withOperands]
  | tinit | write | read1 | rxirq | txirq =>
    simp [decode, decodeImplied, codeOf, rsvField, opField, selField, Instr.withOperands]

theorem decodeImplied_instr_iff (cc : Code) (i j : Instr) :
    decodeImplied cc i = .instr j ↔ selField cc = false ∧ i = j := by
  unfold decodeImplied
  cases selField cc <;> simp

theorem decodeImplied_reserved_iff (cc : Code) (i : Instr) :
    (∃ why, decodeImplied cc i = .reserved why) ↔ selField cc = true := by
  unfold decodeImplied
  cases selField cc <;> simp

/-- No code but an operation's own decodes to it (R64). -/
theorem codeOf_of_decode {c : Command} {i : Instr} (h : decode c = .instr i) : codeOf i = c.cc := by
  unfold decode at h
  split at h
  · cases h
  · rename_i hrsv
    have hrsv : rsvField c.cc = 0 := not_not.mp hrsv
    split at h
    case h_12 => cases h
    case h_7 hop | h_8 hop | h_9 hop | h_10 hop | h_11 hop =>
      obtain ⟨hsel, rfl⟩ := (decodeImplied_instr_iff _ _ _).mp h
      exact code_of_fields hrsv hop hsel
    all_goals
      rename_i hop
      cases h
      exact codeB_of_fields hrsv hop

/-- The three kinds of reserved codes, by the fields (R67). -/
theorem decode_reserved_iff (c : Command) :
    (∃ why, decode c = .reserved why) ↔
      rsvField c.cc ≠ 0 ∨ opField c.cc ∈ [0x6, 0x7, 0xD, 0xE, 0xF] ∨
      (opField c.cc ∈ [0x8, 0x9, 0xA, 0xB, 0xC] ∧ selField c.cc = true) := by
  unfold decode
  by_cases hrsv : rsvField c.cc = 0
  · have hlt := opField_lt c.cc
    simp only [hrsv, ne_eq, not_true_eq_false, if_false, false_or]
    split
    case h_12 =>
      have hop : opField c.cc ∈ [0x6, 0x7, 0xD, 0xE, 0xF] := by
        simp only [List.mem_cons, List.not_mem_nil, or_false, imp_false] at *
        omega
      simp [hop]
    case h_7 hop | h_8 hop | h_9 hop | h_10 hop | h_11 hop =>
      rw [decodeImplied_reserved_iff]
      simp [hop]
    all_goals simp [*]
  · simp [hrsv]

/-! ## The fields as masks of the whole byte

A shift or a low mask is arithmetic; the masks of `RSV` and `SEL` in place are compared over all 256 codes. -/

theorem rsvField_eq_zero_iff_shift (cc : Code) : rsvField cc = 0 ↔ cc >>> 5 = 0#8 := by
  simp [rsvField, BitVec.toNat_eq, Nat.shiftRight_eq_div_pow]

theorem rsvField_eq_zero_iff_mask : ∀ cc : Code, rsvField cc = 0 ↔ cc &&& 0xE0#8 = 0#8 := by decide

theorem selField_iff_mask : ∀ cc : Code, selField cc = true ↔ cc &&& 0x10#8 ≠ 0#8 := by decide

theorem toNat_opMask (cc : Code) : (cc &&& 0x0F#8).toNat = opField cc :=
  Nat.and_two_pow_sub_one_eq_mod cc.toNat 4

theorem opMask_eq_iff (cc op : Code) : cc &&& 0x0F#8 = op ↔ opField cc = op.toNat := by
  rw [BitVec.toNat_eq, toNat_opMask]

theorem opMask_le_iff (cc op : Code) : cc &&& 0x0F#8 ≤ op ↔ opField cc ≤ op.toNat := by
  rw [BitVec.le_def, toNat_opMask]

theorem le_opMask_iff (cc op : Code) : op ≤ cc &&& 0x0F#8 ↔ op.toNat ≤ opField cc := by
  rw [BitVec.le_def, toNat_opMask]

/-- The conditions of R62 and R67 on a code, by its fields. -/
theorem Command.wellFormed_iff (c : Command) :
    c.wellFormed = true ↔
      rsvField c.cc = 0 ∧ (opField c.cc ≤ 0x5 ∨ 0x8 ≤ opField c.cc ∧ opField c.cc ≤ 0xC) ∧
      (selField c.cc = false ∨ opField c.cc ≤ 0x5) := by
  have hsel : selField c.cc = false ↔ c.cc &&& 0x10#8 = 0#8 := by
    rw [← not_iff_not, Bool.not_eq_false]
    exact selField_iff_mask c.cc
  simp [wellFormed, rsvZero, opAssigned, selAllowed, opMask_le_iff, le_opMask_iff, hsel,
    rsvField_eq_zero_iff_mask, and_assoc]

/-- A code that is not well formed is reserved, and only such a code is. -/
theorem decode_reserved_iff_not_wellFormed (c : Command) :
    (∃ why, decode c = .reserved why) ↔ ¬ c.wellFormed = true := by
  have hlt := opField_lt c.cc
  simp only [decode_reserved_iff, c.wellFormed_iff, List.mem_cons, List.not_mem_nil, or_false]
  cases hsel : selField c.cc with
  | false => simp only [Bool.false_eq_true, and_false, or_false, true_or, and_true]; omega
  | true => simp only [Bool.true_eq_false, and_true, false_or]; omega

/-! ## The obligations about codes -/

/-- What the encoder gives an operation is of its row and well formed, whichever operation it is. -/
theorem encoded_statement (i : Instr) : Laws.Encoded.Statement i := by
  cases i with
  | init f => exact Laws.Encoded.init f
  | enq f av payload => exact Laws.Encoded.enq f av payload
  | deq f av maxCount => exact Laws.Encoded.deq f av maxCount
  | empty f => exact Laws.Encoded.empty f
  | full f => exact Laws.Encoded.full f
  | len f => exact Laws.Encoded.len f
  | tinit => exact Laws.Encoded.tinit
  | write av payload => exact Laws.Encoded.write av payload
  | read1 => exact Laws.Encoded.read1
  | rxirq => exact Laws.Encoded.rxirq
  | txirq => exact Laws.Encoded.txirq

/-- Settles O1: the code selects the operation, and the operands beside it are its own. -/
theorem decodeOfEncodeIsTheOperation : Obligations.DecodeOfEncodeIsTheOperation := fun i =>
  (decode_codeOf i (operandsOf i)).trans (congrArg _ i.withOperands_operandsOf)

/-- Settles O2: the code is the one the encoder gives, of which `Laws.Encoded` says the rest; and a code that
does not decode is not well formed. -/
theorem decodedCodeIsTheOperationsCode : Obligations.DecodedCodeIsTheOperationsCode := by
  refine fun c => ⟨fun i h => ?_, fun hwf => ?_⟩
  · have hcode := codeOf_of_decode h
    obtain ⟨hrow, hwf⟩ := encoded_statement i
    refine ⟨hcode, hcode ▸ hrow, ?_⟩
    rw [c.wellFormed_iff, ← hcode]
    exact (encode i).wellFormed_iff.mp hwf
  · cases hd : decode c with
    | instr i => exact ⟨i, rfl⟩
    | reserved why => exact absurd hwf ((decode_reserved_iff_not_wellFormed c).mp ⟨why, hd⟩)

/-- Settles O4: each word written out is the code of its operation. -/
theorem opcodeMapWordsDecode : Obligations.OpcodeMapWordsDecode := fun o =>
  ⟨decode_codeOf (.init .inbound) o, decode_codeOf (.enq .outbound o.av o.payload) o,
    decode_codeOf (.deq .inbound o.av o.maxCount) o, decode_codeOf (.empty .outbound) o, decode_codeOf .tinit o,
    decode_codeOf (.write o.av o.payload) o, decode_codeOf .rxirq o, decode_codeOf .txirq o⟩

/-- Seven of the eight values of `RSV` are reserved, whatever the other five bits (R67). -/
theorem decodeTableWord_isNone_of_rsv {w : Nat} (h : w < 224) : (decodeTableWord 8 (32 + w)).isNone = true := by
  have hrsv : rsvField (BitVec.ofNat 8 (32 + w)) ≠ 0 := by
    simp only [rsvField, BitVec.toNat_ofNat]
    omega
  obtain ⟨why, hd⟩ := (decode_reserved_iff (tableCommand (32 + w))).mpr (.inl hrsv)
  simp [decodeTableWord, hd, Decoded.toOption]

/-- Of the 256 codes 224 have a nonzero `RSV`, and 15 of the other 32 are reserved. -/
theorem countP_reserved_codes :
    (List.range 256).countP (fun w => (decodeTableWord 8 w).isNone) = 239 := by
  have hlow : (List.range 32).countP (fun w => (decodeTableWord 8 w).isNone) = 15 := by decide
  have hhigh : ((List.range 224).map (32 + ·)).countP (fun w => (decodeTableWord 8 w).isNone) = 224 := by
    rw [List.countP_map, List.countP_eq_length.mpr, List.length_range]
    exact fun w hw => decodeTableWord_isNone_of_rsv (List.mem_range.mp hw)
  rw [show 256 = 32 + 224 from rfl, List.range_add, List.countP_append, hlow, hhigh]

end Sys2Proof
end

section
/-! PROOF. What presenting a command does: a reserved code (30_encoding.md R67), the decoded operation (R64), a placed
word (log 22), and who may issue what (R68, 20_memory.md R50). -/

namespace Sys2Proof.Machine

/-! ## A presented command -/

theorem onDecoded_of_instr {c : Command} {i : Instr} (h : decode c = .instr i)
    (k : Instr → Host.Outcome State Fault Refusal) : onDecoded c k = k i := by
  simp [onDecoded, h]

theorem onDecoded_of_reserved {c : Command} {why : DecodeError} (h : decode c = .reserved why)
    (k : Instr → Host.Outcome State Fault Refusal) : onDecoded c k = .refused (.reservedCode c.cc) := by
  simp [onDecoded, h]

theorem step_issue (s : State) (a : Agent) (c : Command) (rest : List Event) :
    step { s with todo := .issue a c :: rest } = onDecoded c fun i => exec i (s.present a rest) := rfl

theorem step_start (s : State) (a : Agent) (c : Command) (rest : List Event) :
    step { s with todo := .start a c :: rest } = onDecoded c fun i => start i (s.present a rest) := rfl

/-- Settles O3: the fields of `decode_reserved_iff` are the masks of the rule. -/
theorem reservedCodesAreRefused : Obligations.ReservedCodesAreRefused := by
  refine ⟨fun c => ?_, countP_reserved_codes, fun c s a rest why h => ?_⟩
  · rw [decode_reserved_iff]
    simp [rsvField_eq_zero_iff_shift, opMask_eq_iff, selField_iff_mask]
  · exact ⟨(step_issue s a c rest).trans (onDecoded_of_reserved h _),
      (step_start s a c rest).trans (onDecoded_of_reserved h _)⟩

/-- Settles O5: each move of the tape has its own arm of `step`. -/
theorem stepRunsTheDecodedOperation : Obligations.StepRunsTheDecodedOperation := fun s a c _ rest h =>
  ⟨(step_issue s a c rest).trans (onDecoded_of_instr h _),
    (step_start s a c rest).trans (onDecoded_of_instr h _), rfl, rfl⟩

/-! ## A placed word -/

/-- Staging meets what the operation asks of its issuer and of the state (R68, R152 to R154; log 22). -/
theorem legality_stage (i : Instr) (s : State) (rest : List Event) :
    legality i ((s.stage (some i)).present i.usualAgent rest) = none := by
  have hobserver : ∀ f,
      firstRefusal (((s.settle.setInitialised f true).present .fg rest).observerRefusals f) = none :=
    fun f => (observer_legal_iff f _).mpr (by simp [State.settle])
  cases i with
  | init f => exact (legality_init_iff f _).mpr ⟨rfl, rfl, rfl, rfl⟩
  | enq f av payload =>
    exact (legality_enq_iff f av payload _).mpr (by simp [State.stage, State.settle, Instr.usualAgent])
  | deq f av m =>
    exact (legality_deq_iff f av m _).mpr (by simp [State.stage, State.settle, Instr.usualAgent])
  | empty f => exact hobserver f
  | full f => exact hobserver f
  | len f => exact hobserver f
  | tinit => exact (legality_tinit_iff _).mpr ⟨rfl, rfl, rfl, rfl⟩
  | write av payload => exact (legality_write_iff av payload _).mpr ⟨rfl, rfl, rfl, rfl⟩
  | read1 => exact (legality_read1_iff _).mpr ⟨rfl, rfl, rfl, rfl⟩
  | rxirq => exact (legality_rxirq_iff _).mpr ⟨rfl, rfl, rfl, rfl⟩
  | txirq => exact (legality_txirq_iff _).mpr ⟨rfl, rfl, rfl, rfl, rfl⟩

/-- No meaning stops once the operation may be issued. -/
theorem exec_next_of_legal {i : Instr} {s : State} (h : legality i s = none) : ∃ t, exec i s = .next t := by
  cases i <;> exact ⟨_, State.whenLegal_of_legal _ _ _ h⟩

theorem decode_tableCommand {w : Nat} {i : Instr} (h : decodeTableWord 8 w = some i) :
    decode (tableCommand w) = .instr i := by
  cases hd : decode (tableCommand w) <;> simp_all [decodeTableWord, Decoded.toOption]

/-- A placed word of the table is the next move, issued by its operation's agent in the staged state. -/
theorem State.withFetchWord_eq (s : State) {w : Nat} {i : Instr} (h : decodeTableWord 8 w = some i) :
    s.withFetchWord 8 w =
      { s.stage (some i) with todo := .issue i.usualAgent (tableCommand w) :: s.todo } := by
  simp [State.withFetchWord, State.place, decode_tableCommand h, Decoded.toOption, stagedAgent]

/-- Settles O6: the placed word is decoded and run, and staging leaves no reason to refuse it. -/
theorem placedWordRunsAndCompletes : Obligations.PlacedWordRunsAndCompletes := by
  intro s w i h
  have hstep : step (s.withFetchWord 8 w) = exec i ((s.stage (some i)).present i.usualAgent s.todo) := by
    rw [s.withFetchWord_eq h, step_issue, onDecoded_of_instr (decode_tableCommand h)]
  exact ⟨hstep, hstep ▸ exec_next_of_legal (legality_stage i s s.todo)⟩

/-! ## Who may issue -/

/-- An operation that goes on, whole or by micro-steps, may be issued. -/
theorem legal_of_next {i : Instr} {s t : State} (h : exec i s = .next t ∨ start i s = .next t) :
    legality i s = none := by
  have hexec : exec i s = .next t → legality i s = none := fun he => (exec_next_frame i s t he).1
  rcases h with he | hs
  · exact hexec he
  · rcases start_next_cases i s t hs with ⟨-, -, hl, -⟩ | ⟨-, he⟩
    · exact hl
    · exact hexec he

/-- Only the observers have no in-flight record (log 13). -/
theorem opOf_eq_none_iff (i : Instr) : opOf i = none ↔ ∃ f, i = .empty f ∨ i = .full f ∨ i = .len f := by
  cases i <;> simp [opOf]

theorem mayIssue_of_legal {i : Instr} {s : State} (hl : legality i s = none) : mayIssue i s.issuer = true := by
  cases ho : opOf i with
  | some o =>
    have hfits := (fits_of_legality hl ho).1
    cases i <;> cases ho <;> simp_all [mayIssue]
  | none =>
    obtain ⟨f, rfl | rfl | rfl⟩ := (opOf_eq_none_iff i).mp ho <;> rfl

/-- An agent with an operation in flight issues nothing but an observer, and is a handler (R50, log 13). -/
theorem busy_issuer_cases {i : Instr} {s : State} (hl : legality i s = none)
    (hbusy : (s.agent s.issuer).inflight ≠ none) :
    s.issuer ≠ .fg ∧ ∃ f, i = .empty f ∨ i = .full f ∨ i = .len f := by
  cases ho : opOf i with
  | some o => exact absurd (fits_of_legality hl ho).2 hbusy
  | none =>
    obtain ⟨f, hi⟩ := (opOf_eq_none_iff i).mp ho
    have hobs : firstRefusal (s.observerRefusals f) = none := by rcases hi with rfl | rfl | rfl <;> exact hl
    refine ⟨?_, f, hi⟩
    obtain ⟨-, ⟨ha, hidle, -⟩ | ⟨hne, -⟩⟩ := (observer_legal_iff f s).mp hobs
    · exact absurd (by rw [ha]; exact hidle) hbusy
    · exact hne

/-- Settles O55: what goes on is legal, and legality asks for the agent of the table with nothing in flight. -/
theorem onlyAllowedAgentsIssue : Obligations.OnlyAllowedAgentsIssue := by
  intro i s t h
  have hl := legal_of_next h
  refine ⟨mayIssue_of_legal hl, fun ha => ⟨?_, active_nil_of_legal hl ha⟩, busy_issuer_cases hl⟩
  by_contra hbusy
  exact (busy_issuer_cases hl (by rw [ha]; exact hbusy)).1 ha

/-- Settles O57: being assembled is the first thing legality asks about. -/
theorem bufferCodesStayInsideTheTransport : Obligations.BufferCodesStayInsideTheTransport := by
  intro f av p m s hb
  have henq : legality (.enq f av p) s = some .transportOnly := by simp [legality, firstRefusal, hb]
  have hdeq : legality (.deq f av m) s = some .transportOnly := by simp [legality, firstRefusal, hb]
  exact ⟨State.whenLegal_of_refused _ _ _ _ henq, State.whenLegal_of_refused _ _ _ _ henq,
    State.whenLegal_of_refused _ _ _ _ hdeq, State.whenLegal_of_refused _ _ _ _ hdeq⟩

end Sys2Proof.Machine
end

section
/-! PROOF. `INIT`, `ENQ` and `DEQ` on a buffer exercised alone (30_encoding.md R68): what each answers, and the account
of the bytes that go in and out (40_buffer_ops.md R94, R100). -/

namespace Sys2Proof.Machine

/-! ## What they answer -/

section
variable {s : State} {f : Inst}

theorem State.BenchReady.exec_enq (h : s.BenchReady f) (av : Bool) (p : List Byte) :
    exec (.enq f av p) s = .next ((s.setBuf f ((s.buf f).enqueue av p).1).finish .fg
      (.accepted ((s.buf f).enqueue av p).2)) := by
  obtain ⟨⟨ha, hfg, hact⟩, hb, hinit⟩ := h
  have hl := (legality_enq_iff f av p s).mpr ⟨ha, hb, hinit, hfg, hact⟩
  exact (State.whenLegal_of_legal _ _ _ hl).trans (by rw [ha])

theorem State.BenchReady.exec_deq (h : s.BenchReady f) (av : Bool) (m : Nat) :
    exec (.deq f av m) s = .next ((s.setBuf f ((s.buf f).dequeue f av m).1).finish .fg
      (.removed ((s.buf f).dequeue f av m).2 ((s.buf f).dequeue f av m).2.length)) := by
  obtain ⟨⟨ha, hfg, hact⟩, hb, hinit⟩ := h
  have hl := (legality_deq_iff f av m s).mpr ⟨ha, hb, hinit, hfg, hact⟩
  exact (State.whenLegal_of_legal _ _ _ hl).trans (by rw [ha])

theorem State.BenchReady.exec_init (h : s.BenchReady f) :
    exec (.init f) s = .next (((s.setBuf f (s.buf f).init).setInitialised f true).finish .fg .nothing) := by
  obtain ⟨hready, hb, -⟩ := h
  exact initAndTinitEnterTheEmptyState.1 f s hready hb

/-- The test agent may issue again when an operation of its own has returned, whatever that left in the buffer. -/
theorem State.BenchReady.finish (h : s.BenchReady f) (b : Buffer) (r : Result) :
    ((s.setBuf f b).finish .fg r).BenchReady f := by
  obtain ⟨⟨ha, -, hact⟩, hb, hinit⟩ := h
  exact ⟨⟨by simpa using ha, by simp, by simpa using hact⟩, by simpa using hb, by simpa using hinit⟩

theorem State.BenchReady.finish_init (h : s.BenchReady f) (b : Buffer) (r : Result) :
    (((s.setBuf f b).setInitialised f true).finish .fg r).BenchReady f := by
  obtain ⟨⟨ha, -, hact⟩, hb, -⟩ := h
  exact ⟨⟨by simpa using ha, by simp, by simpa using hact⟩, by simpa using hb, by simp⟩

end

theorem State.setBuf_self (s : State) (f : Inst) : s.setBuf f (s.buf f) = s := by
  cases f <;> rfl

/-- Settles O12: the argument test Q0 or P0 comes before the loop. -/
theorem nullArgumentMovesNothing : Obligations.NullArgumentMovesNothing := by
  intro f s h
  refine ⟨fun p => (h.exec_enq false p).trans ?_, fun m => (h.exec_deq false m).trans ?_⟩ <;>
    simp [Buffer.enqueue, Buffer.dequeue, State.setBuf_self]

/-! ## The account -/

@[simp] theorem Buffer.cap_enqueue (b : Buffer) (av : Bool) (p : List Byte) : (b.enqueue av p).1.cap = b.cap := by
  simp [Buffer.cap]

@[simp] theorem Buffer.cap_dequeue (f : Inst) (b : Buffer) (av : Bool) (n : Nat) :
    (b.dequeue f av n).1.cap = b.cap := by
  simp [Buffer.cap]

theorem Buffer.count_enqueue {b : Buffer} (h : b.count ≤ b.cap) (av : Bool) (p : List Byte) :
    (b.enqueue av p).1.count = b.count + (b.enqueue av p).2 ∧ (b.enqueue av p).1.count ≤ b.cap := by
  cases av with
  | false => exact ⟨rfl, h⟩
  | true =>
    obtain ⟨-, -, haccepted, hcount⟩ := b.enqLoop_registers p h
    show (b.enqLoop p).1.count = b.count + (b.enqLoop p).2 ∧ (b.enqLoop p).1.count ≤ b.cap
    omega

theorem Buffer.count_dequeue_add (f : Inst) (b : Buffer) (av : Bool) (n : Nat) :
    (b.dequeue f av n).1.count + (b.dequeue f av n).2.length = b.count := by
  cases av with
  | false => rfl
  | true =>
    obtain ⟨-, -, -, hlength, hcount⟩ := b.deqLoop_registers f n
    show (b.deqLoop f n).1.count + (b.deqLoop f n).2.length = b.count
    omega

section
variable {s : State} {f : Inst}

theorem State.BenchReady.account_enq (h : s.BenchReady f) (av : Bool) (p : List Byte) (ops : List Instr) (e d : Nat) :
    account (.enq f av p :: ops) s e d =
      account ops ((s.setBuf f ((s.buf f).enqueue av p).1).finish .fg (.accepted ((s.buf f).enqueue av p).2))
        (e + ((s.buf f).enqueue av p).2) d := by
  simp [account, h.exec_enq]

theorem State.BenchReady.account_deq (h : s.BenchReady f) (av : Bool) (m : Nat) (ops : List Instr) (e d : Nat) :
    account (.deq f av m :: ops) s e d =
      account ops ((s.setBuf f ((s.buf f).dequeue f av m).1).finish .fg
        (.removed ((s.buf f).dequeue f av m).2 ((s.buf f).dequeue f av m).2.length))
        e (d + ((s.buf f).dequeue f av m).2.length) := by
  simp [account, h.exec_deq]

theorem State.BenchReady.account_init (h : s.BenchReady f) (ops : List Instr) (e d : Nat) :
    account (.init f :: ops) s e d =
      account ops (((s.setBuf f (s.buf f).init).setInitialised f true).finish .fg .nothing) 0 0 := by
  simp [account, h.exec_init]

/-- R100 needs of the buffer only that its count is in range: each operation keeps that and the running equation, and
the test agent may issue the next. -/
theorem State.BenchReady.account_balances (ops : List Instr) {s : State} {e d : Nat} (h : s.BenchReady f)
    (hn : (s.buf f).count ≤ (s.buf f).cap) (hops : ∀ i ∈ ops, movesBytes f i) (he : (s.buf f).count + d = e) :
    ∃ t e' d', account ops s e d = some (t, e', d') ∧
      (t.buf f).count + d' = e' ∧ (t.buf f).count ≤ (t.buf f).cap := by
  induction ops generalizing s e d with
  | nil => exact ⟨s, e, d, rfl, he, hn⟩
  | cons i ops ih =>
    have hi : movesBytes f i := hops i (List.mem_cons_self ..)
    have hops' : ∀ j ∈ ops, movesBytes f j := fun j hj => hops j (List.mem_cons_of_mem _ hj)
    cases i with
    | enq g av p =>
      cases hi
      obtain ⟨hcount, hle⟩ := Buffer.count_enqueue hn av p
      rw [h.account_enq]
      refine ih (h.finish _ _) (by simpa using hle) hops' ?_
      simp only [State.finish_eq, State.buf_setAgent, State.buf_setBuf_same]
      omega
    | deq g av m =>
      cases hi
      have hcount := (s.buf f).count_dequeue_add f av m
      rw [h.account_deq]
      refine ih (h.finish _ _) (by simpa using ((s.buf f).count_dequeue_le f av m).trans hn) hops' ?_
      simp only [State.finish_eq, State.buf_setAgent, State.buf_setBuf_same]
      omega
    | init g =>
      cases hi
      rw [h.account_init]
      exact ih (h.finish_init _ _) (by simp [Buffer.init_eq]) hops' (by simp [Buffer.init_eq])
    | _ => exact hi.elim

end

/-- Settles O16, by induction on the sequence of operations. -/
theorem lengthIsEnqueuedMinusDequeued : Obligations.LengthIsEnqueuedMinusDequeued := by
  intro f ops s e d h hrange hops he
  obtain ⟨-, -, hn⟩ := hrange
  exact h.account_balances ops hn hops he

end Sys2Proof.Machine
end

section
/-! PROOF. What the batches do to the slots, the indices and the contents of one buffer (40_buffer_ops.md R86, R92,
R102; 20_memory.md R41; 10_state.md R22). -/

namespace Sys2Proof.Machine

/-! ## The slots an `ENQ` stores to -/

/-- The slots from the next index on are those from the index on, but the first (10_state.md R21). -/
theorem Buffer.advance_add_mod (b : Buffer) (x j : Nat) : (b.advance x + j) % b.cap = (x + (j + 1)) % b.cap := by
  rw [b.advance_eq, Nat.mod_add_mod, Nat.add_assoc, Nat.add_comm 1 j]

theorem Buffer.cap_congr {b b' : Buffer} (h : b'.k = b.k) : b'.cap = b.cap := by
  simp [Buffer.cap, h]

theorem Buffer.enqLoop_of_full {b : Buffer} (h : b.count = b.cap) (p : List Byte) : b.enqLoop p = (b, 0) := by
  cases p with
  | nil => rfl
  | cons x rest => simp [Buffer.enqLoop, Buffer.enq1, b.isFull_iff.mpr h]

theorem Buffer.enqLoop_cons {b b' : Buffer} {x : Byte} (h : b.enq1 x = some b') (rest : List Byte) :
    b.enqLoop (x :: rest) = ((b'.enqLoop rest).1, (b'.enqLoop rest).2 + 1) := by
  simp [Buffer.enqLoop, h]

/-- A slot that takes none of the accepted bytes reads as before. -/
theorem Buffer.memRead_enqLoop_of_ne (p : List Byte) {b : Buffer} (hw : b.widx < b.cap) {i : Nat}
    (hi : ∀ j, j < (b.enqLoop p).2 → i ≠ (b.widx + j) % b.cap) :
    memRead (b.enqLoop p).1.mem i = memRead b.mem i := by
  induction p generalizing b with
  | nil => rfl
  | cons x rest ih =>
    rcases b.enq1_cases x with ⟨hfull, -⟩ | ⟨-, b', he, hk, hm, hwidx, -⟩
    · rw [Buffer.enqLoop_of_full hfull]
    · have hcap := Buffer.cap_congr hk
      rw [Buffer.enqLoop_cons he] at hi ⊢
      have hfirst : i ≠ b.widx := by simpa [Nat.mod_eq_of_lt hw] using hi 0 (Nat.succ_pos _)
      rw [ih (by rw [hwidx, hcap]; exact b.advance_lt _), hm, memRead_memWrite_of_ne _ _ hfirst]
      intro j hj
      rw [hwidx, hcap, b.advance_add_mod]
      exact hi (j + 1) (Nat.succ_lt_succ hj)

/-- Byte `j` of those accepted is in slot `(widx + j) mod C` (20_memory.md R41). The bytes behind it do not come round
to that slot, because there are fewer of them than free slots. -/
theorem Buffer.memRead_enqLoop_slot (p : List Byte) {b : Buffer} (hw : b.widx < b.cap) (hn : b.count ≤ b.cap)
    {j : Nat} (hj : j < (b.enqLoop p).2) : memRead (b.enqLoop p).1.mem ((b.widx + j) % b.cap) = p[j]? := by
  induction p generalizing b j with
  | nil => cases hj
  | cons x rest ih =>
    rcases b.enq1_cases x with ⟨hfull, -⟩ | ⟨hroom, b', he, hk, hm, hwidx, -, hcount, -⟩
    · rw [Buffer.enqLoop_of_full hfull] at hj
      cases hj
    · have hcap := Buffer.cap_congr hk
      have hw' : b'.widx < b'.cap := by rw [hwidx, hcap]; exact b.advance_lt _
      have hn' : b'.count ≤ b'.cap := by omega
      rw [Buffer.enqLoop_cons he] at hj ⊢
      cases j with
      | zero =>
        obtain ⟨-, -, haccepted, -⟩ := b'.enqLoop_registers rest hn'
        have hslot : (b.widx + 0) % b.cap = b.widx := Nat.mod_eq_of_lt hw
        rw [hslot, Buffer.memRead_enqLoop_of_ne rest hw', hm, memRead_memWrite_same]
        · rfl
        · intro j hj heq
          have hlt : j + 1 < b.cap := by omega
          rw [hwidx, hcap, b.advance_add_mod] at heq
          exact absurd (b.slot_inj b.cap_pos hlt (hslot.trans heq)) (Nat.succ_ne_zero j).symm
      | succ j =>
        have hrest := ih hw' hn' (Nat.lt_of_succ_lt_succ hj)
        rw [hwidx, hcap, b.advance_add_mod] at hrest
        exact hrest

theorem Buffer.enqLoop_of_accepts_none {b : Buffer} {p : List Byte} (h : (b.enqLoop p).2 = 0) :
    (b.enqLoop p).1 = b := by
  cases p with
  | nil => rfl
  | cons x rest =>
    rcases b.enq1_cases x with ⟨hfull, -⟩ | ⟨-, b', he, -⟩
    · rw [Buffer.enqLoop_of_full hfull]
    · rw [Buffer.enqLoop_cons he] at h
      cases h

/-- Settles O13: the accepted bytes go to consecutive slots from the write index on, and to no other. -/
theorem enqStoresItsBytesAndNothingElse : Obligations.EnqStoresItsBytesAndNothingElse := by
  intro f p s h hrange
  obtain ⟨hw, -, hn⟩ := hrange
  obtain ⟨hk, hridx, haccepted, hcount⟩ := (s.buf f).enqLoop_registers p hn
  refine ⟨_, _, h.exec_enq true p, haccepted, fun j hj => ?_, fun i hi => ?_, hridx, hk, hcount,
    Buffer.enqLoop_of_accepts_none⟩
  · rw [(s.buf f).mask_eq_mod]
    exact Buffer.memRead_enqLoop_slot p hw hn hj
  · simp only [(s.buf f).mask_eq_mod] at hi
    exact Buffer.memRead_enqLoop_of_ne p hw hi

/-! ## `DEQ` -/

theorem Buffer.deqLoop_of_empty {b : Buffer} (h : b.count = 0) (f : Inst) (n : Nat) : b.deqLoop f n = (b, []) := by
  cases n with
  | zero => rfl
  | succ n => simp [Buffer.deqLoop, Buffer.deq1, b.isEmpty_iff.mpr h]

theorem Buffer.deqLoop_succ {f : Inst} {b b' : Buffer} {x : Byte} (h : b.deq1 f = some (b', x)) (n : Nat) :
    b.deqLoop f (n + 1) = ((b'.deqLoop f n).1, x :: (b'.deqLoop f n).2) := by
  simp [Buffer.deqLoop, h]

/-- A `DEQ` does nothing at all, or its last D4 leaves the flag clear (R91). -/
theorem Buffer.deqLoop_unchanged_or_clears (f : Inst) (b : Buffer) (n : Nat) :
    b.deqLoop f n = (b, []) ∨ ((b.deqLoop f n).2 ≠ [] ∧ (b.deqLoop f n).1.full = false) := by
  induction n generalizing b with
  | zero => exact .inl rfl
  | succ n ih =>
    rcases b.deq1_cases f with ⟨hempty, -⟩ | ⟨-, b', he, -, -, -, -, -, hclear⟩
    · exact .inl (Buffer.deqLoop_of_empty hempty f _)
    · rw [Buffer.deqLoop_succ he]
      refine .inr ⟨List.cons_ne_nil _ _, ?_⟩
      rcases ih b' with hsame | ⟨-, hfull⟩
      · rw [hsame]; exact hclear
      · exact hfull

/-- Settles O14: the loop P2 to P6 runs D2 to D4 alone, and only if it removes a byte. -/
theorem deqWritesNoSlot : Obligations.DeqWritesNoSlot := by
  intro f m s h
  obtain ⟨hk, hw, hm, hlength, hcount⟩ := (s.buf f).deqLoop_registers f m
  refine ⟨_, _, h.exec_deq true m, hlength, hm, hw, hk, hcount, fun hnone => ?_, fun hsome => ?_⟩
  · rcases (s.buf f).deqLoop_unchanged_or_clears f m with hsame | ⟨hsome, -⟩
    · exact congrArg Prod.fst hsame
    · exact absurd hnone hsome
  · rcases (s.buf f).deqLoop_unchanged_or_clears f m with hsame | ⟨-, hclear⟩
    · exact absurd (congrArg Prod.snd hsame) hsome
    · exact hclear

/-! ## The indices -/

theorem Buffer.widx_enqLoop (p : List Byte) {b : Buffer} (hw : b.widx < b.cap) :
    (b.enqLoop p).1.widx = (b.widx + (b.enqLoop p).2) % b.cap := by
  induction p generalizing b with
  | nil => exact (Nat.mod_eq_of_lt hw).symm
  | cons x rest ih =>
    rcases b.enq1_cases x with ⟨hfull, -⟩ | ⟨-, b', he, hk, -, hwidx, -⟩
    · rw [Buffer.enqLoop_of_full hfull]
      exact (Nat.mod_eq_of_lt hw).symm
    · have hcap := Buffer.cap_congr hk
      rw [Buffer.enqLoop_cons he, ih (by rw [hwidx, hcap]; exact b.advance_lt _), hwidx, hcap, b.advance_add_mod]

theorem Buffer.ridx_deqLoop (f : Inst) (n : Nat) {b : Buffer} (hr : b.ridx < b.cap) :
    (b.deqLoop f n).1.ridx = (b.ridx + (b.deqLoop f n).2.length) % b.cap := by
  induction n generalizing b with
  | zero => exact (Nat.mod_eq_of_lt hr).symm
  | succ n ih =>
    rcases b.deq1_cases f with ⟨hempty, -⟩ | ⟨-, b', he, hk, -, -, hridx, -⟩
    · rw [Buffer.deqLoop_of_empty hempty]
      exact (Nat.mod_eq_of_lt hr).symm
    · have hcap := Buffer.cap_congr hk
      rw [Buffer.deqLoop_succ he, ih (by rw [hridx, hcap]; exact b.advance_lt _), hridx, hcap, b.advance_add_mod,
        List.length_cons]

/-! ## The contents -/

@[simp] theorem Buffer.length_contents (f : Inst) (b : Buffer) : (b.contents f).length = b.count := by
  simp [Buffer.contents]

/-- The contents are the queue of unread bytes with nobody part-way. -/
theorem Buffer.contents_eq_unread (f : Inst) (b : Buffer) : b.contents f = b.unread f none := by
  simp [Buffer.contents, Buffer.unread, Buffer.oldest, consLag, b.mask_eq_mod]

/-- The loop stops where the buffer is full, so the bytes there is no room for make no difference (R86). -/
theorem Buffer.enqLoop_take (p : List Byte) {b : Buffer} (hn : b.count ≤ b.cap) :
    b.enqLoop (p.take (b.cap - b.count)) = b.enqLoop p := by
  induction p generalizing b with
  | nil => rw [List.take_nil]
  | cons x rest ih =>
    rcases b.enq1_cases x with ⟨hfull, -⟩ | ⟨hroom, b', he, hk, -, -, -, hcount, -⟩
    · rw [Buffer.enqLoop_of_full hfull, Buffer.enqLoop_of_full hfull]
    · have hcap := Buffer.cap_congr hk
      have hfree : b.cap - b.count = (b'.cap - b'.count) + 1 := by omega
      rw [hfree, List.take_succ_cons, Buffer.enqLoop_cons he, Buffer.enqLoop_cons he, ih (by omega)]

section
variable {b : Buffer}

/-- `ENQ` appends the bytes there is room for. -/
theorem RingOk.contents_enqLoop (h : RingOk b none none) (hr : b.InRange) (f : Inst) (p : List Byte) :
    (b.enqLoop p).1.contents f = b.contents f ++ p.take (b.cap - b.count) := by
  obtain ⟨-, -, hn⟩ := id hr
  have hroom : b.count + (p.take (b.cap - b.count)).length ≤ b.cap := by
    have := List.length_take_le (b.cap - b.count) p
    omega
  obtain ⟨-, -, happended⟩ := h.enqLoop hr hroom
  rw [← Buffer.enqLoop_take p hn, Buffer.contents_eq_unread, happended, Buffer.contents_eq_unread]

/-- `DEQ` leaves what it does not return. -/
theorem RingOk.contents_deqLoop (h : RingOk b none none) (hr : b.InRange) (f : Inst) (n : Nat) :
    (b.deqLoop f n).1.contents f = (b.contents f).drop n := by
  simp only [Buffer.contents_eq_unread]
  induction n generalizing b with
  | zero => rfl
  | succ n ih =>
    by_cases he : b.count = 0
    · rw [Buffer.deqLoop_of_empty he]
      simp [Buffer.unread, he]
    · have hne : b.isEmpty = false := Bool.eq_false_iff.mpr fun h0 => he (b.isEmpty_iff.mp h0)
      have hone : b.deq1 f = some (b.d2.d3.d4, b.d1 f) := by simp [Buffer.deq1, hne]
      obtain ⟨hring, hrange, hqueue⟩ := h.deq1 hr (Nat.pos_of_ne_zero he)
      rw [hqueue f, List.drop_succ_cons, ← ih hring hrange, Buffer.deqLoop_succ hone]

end

/-- Settles O11: each batch on the contents, on the flag and on its index. -/
theorem sequentialMeaningOverContents : Obligations.SequentialMeaningOverContents := by
  intro f s h hrange hring hflag
  obtain ⟨hw, hr, hn⟩ := id hrange
  refine ⟨fun p => ?_, fun m => ?_, ?_⟩
  · obtain ⟨hk, hridx, haccepted, -⟩ := (s.buf f).enqLoop_registers p hn
    rw [Buffer.length_contents]
    refine ⟨((s.buf f).enqLoop p).1, ?_, ?_, hflag.enqueue true p, hk, ?_, hridx⟩
    · rw [← haccepted]; exact h.exec_enq true p
    · rw [hring.contents_enqLoop hrange, List.take_eq_take_min, Nat.min_comm]
    · rw [← haccepted]; exact Buffer.widx_enqLoop p hw
  · obtain ⟨hk, hwidx, -, hlength, -⟩ := (s.buf f).deqLoop_registers f m
    have hbytes : ((s.buf f).deqLoop f m).2 = ((s.buf f).contents f).take (min m (s.buf f).count) := by
      rw [hring.deqLoop hrange, ← Buffer.contents_eq_unread, List.take_eq_take_min, Buffer.length_contents]
    rw [Buffer.length_contents]
    refine ⟨((s.buf f).deqLoop f m).1, ?_, ?_, hflag.dequeue hn f true m, hk, hwidx, ?_⟩
    · rw [← hbytes, ← hlength]; exact h.exec_deq true m
    · rw [hring.contents_deqLoop hrange]
      exact List.drop_eq_drop_iff.mpr (by simp)
    · rw [← hlength]; exact Buffer.ridx_deqLoop f m hr
  · exact ⟨(s.buf f).init, h.exec_init, by simp [Buffer.contents, Buffer.init_eq], .init _, rfl⟩

end Sys2Proof.Machine
end

section
/-! PROOF. The observers (40_buffer_ops.md R95 to R97): each answers from the count alone and writes its
result alone. -/

namespace Sys2Proof.Machine

/-- An observer goes on for every agent that may call it, and writes what it reports (log 13). -/
theorem State.ObserverReady.observes {f : Inst} {s : State} {i : Instr} (h : s.ObserverReady f)
    (hi : i = .empty f ∨ i = .full f ∨ i = .len f) (t : State) : s.whenLegal i t = .next t := by
  have hl := (observer_legal_iff f s).mpr h
  rcases hi with rfl | rfl | rfl <;> exact State.whenLegal_of_legal _ _ _ hl

/-- Settles O7: M1 compares the count with 0. -/
theorem emptyReportsCountZero : Obligations.EmptyReportsCountZero := by
  refine ⟨⟨rfl, rfl⟩, fun f s h => (h.observes (.inl rfl) _).trans ?_⟩
  rw [State.report_eq, Buffer.isEmpty, beq_eq_decide]

/-- Settles O8: M1 compares the count, not the stored flag. -/
theorem fullReportsCountEqualsCapacity : Obligations.FullReportsCountEqualsCapacity := by
  refine ⟨⟨rfl, rfl⟩, fun f s h => (h.observes (.inr (.inl rfl)) _).trans ?_⟩
  rw [State.report_eq, Buffer.isFull, beq_eq_decide, Buffer.cap]

/-- Settles O9: the bound is the range of the invariant. -/
theorem lenReportsCount : Obligations.LenReportsCount := by
  refine ⟨⟨rfl, rfl⟩, fun f s h => ⟨h.observes (.inr (.inr rfl)) _, fun hinv => ?_⟩⟩
  obtain ⟨-, -, hn⟩ := hinv.inRange f
  exact hn

end Sys2Proof.Machine
end

section
/-! PROOF. In an assembled transport the count of a buffer goes up only with its producer and down only with its
consumer, so free space is a lower bound for the one and the count for the other (40_buffer_ops.md R98, R99). -/

namespace Sys2Proof.Machine

/-! ## What may move the count of a buffer -/

/-- The operation stands before the increment E3 of the `ENQ` into `f` of a transport. -/
def Op.Increments (o : Op) : Inst → Prop
  | .inbound => ∃ x r, o = .rxirq (.rx6 x r) ∧ r.pos = .e3
  | .outbound => ∃ av p r, o = .write av p (.w2 r) ∧ r.pos = .e3

/-- The operation stands before the decrement D3 of the `DEQ` from `f` of a transport. -/
def Op.Decrements (o : Op) : Inst → Prop
  | .inbound => ∃ r x, o = .read1 (.x1 r) ∧ r.pos = .d3 x
  | .outbound => ∃ r x, o = .txirq (.tx1 r) ∧ r.pos = .d3 x

/-- The operations that enqueue into `f` of a transport. -/
def enqueuesInto (f : Inst) (i : Instr) : Prop :=
  match f with
  | .inbound => i = .rxirq
  | .outbound => ∃ x p, i = .write true (x :: p)

/-- The operations that dequeue from `f` of a transport. -/
def dequeuesFrom (f : Inst) (i : Instr) : Prop :=
  match f with
  | .inbound => i = .read1
  | .outbound => i = .txirq

/-- A count goes from `n` to `n'`: up only where `up` holds, down only where `down` does. -/
structure CountMove (up down : Prop) (n n' : Nat) : Prop where
  raises : n < n' → up
  lowers : n' < n → down

section
variable {up down : Prop} {n n' : Nat}

theorem CountMove.of_eq (h : n' = n) : CountMove up down n n' :=
  ⟨fun hlt => absurd h hlt.ne', fun hlt => absurd h hlt.ne⟩

theorem CountMove.of_le (hle : n ≤ n') (hup : up) : CountMove up down n n' :=
  ⟨fun _ => hup, fun hlt => absurd hle hlt.not_ge⟩

theorem CountMove.of_ge (hle : n' ≤ n) (hdown : down) : CountMove up down n n' :=
  ⟨fun hlt => absurd hle hlt.not_ge, fun _ => hdown⟩

theorem CountMove.imp {up' down' : Prop} (h : CountMove up down n n') (hup : up → up') (hdown : down → down') :
    CountMove up' down' n n' :=
  ⟨fun hlt => hup (h.raises hlt), fun hlt => hdown (h.lowers hlt)⟩

end

/-! ## Micro-steps -/

theorem Op.increments_of_enqOn {f : Inst} {o : Op} {a : Agent} {r : EnqRun} {p : List Byte}
    (hfits : o.fits a true = true) (hx : o.enqOn f = some (r, p)) (hr : r.pos = .e3) : o.Increments f := by
  rcases Op.enqOn_eq_some hx with ⟨av, rfl⟩ | ⟨rfl, av, rfl⟩ | ⟨rfl, x, rfl, -⟩
  · simp at hfits
  · exact ⟨av, p, r, rfl, hr⟩
  · exact ⟨x, r, rfl, hr⟩

theorem Op.decrements_of_deqOn {f : Inst} {o : Op} {a : Agent} {r : DeqRun} {x : Byte}
    (hfits : o.fits a true = true) (hx : o.deqOn f = some r) (hr : r.pos = .d3 x) : o.Decrements f := by
  rcases Op.deqOn_eq_some hx with ⟨av, m, rfl⟩ | ⟨rfl, rfl⟩ | ⟨rfl, rfl⟩
  · simp at hfits
  · exact ⟨r, x, rfl, hr⟩
  · exact ⟨r, x, rfl, hr⟩

theorem microOp_countMove {o : Op} {a : Agent} (hfits : o.fits a true = true) (s : State) (f : Inst) :
    CountMove (a = producerOf f true ∧ o.Increments f) (a = consumerOf f true ∧ o.Decrements f)
      (s.buf f).count ((microOp o s).1.buf f).count := by
  cases microOp_movesOn f o s with
  | stays hb => exact .of_eq (congrArg Buffer.count hb)
  | begins _ _ _ hb => exact .of_eq (congrArg Buffer.count hb)
  | inits q hi =>
    obtain ⟨-, hboot⟩ := Op.fits_of_initOn hfits hi
    cases hboot
  | produces av r p hx hb =>
    rw [hb]
    rcases r.step_buffer_cases av p (s.buf f) with
      he | ⟨x, -, he⟩ | ⟨-, he⟩ | ⟨hpos, he⟩ | ⟨-, he⟩ <;> rw [he]
    case inr.inr.inr.inl =>
      exact .of_le (Nat.le_succ _) ⟨Op.producer_of_fits hfits hx, Op.increments_of_enqOn hfits hx hpos⟩
    all_goals exact .of_eq rfl
  | consumes av m r hx hb =>
    rw [hb]
    rcases r.step_buffer_cases f av m (s.buf f) with
      he | ⟨x, -, he⟩ | ⟨x, hpos, he⟩ | ⟨x, -, he⟩ <;> rw [he]
    case inr.inr.inl =>
      exact .of_ge (Nat.sub_le _ _) ⟨Op.consumer_of_fits hfits hx, Op.decrements_of_deqOn hfits hx hpos⟩
    all_goals exact .of_eq rfl

/-! ## Whole operations -/

theorem Buffer.count_le_enqueue (b : Buffer) (av : Bool) (p : List Byte) : b.count ≤ (b.enqueue av p).1.count := by
  cases av with
  | false => exact le_rfl
  | true =>
    show b.count ≤ (b.enqLoop p).1.count
    induction p generalizing b with
    | nil => exact le_rfl
    | cons x rest ih =>
      rcases b.enq1_cases x with ⟨hfull, -⟩ | ⟨-, b', he, -, -, -, -, hcount, -⟩
      · rw [Buffer.enqLoop_of_full hfull]
      · rw [Buffer.enqLoop_cons he]
        have hstep : b.count ≤ b'.count := by omega
        exact hstep.trans (ih b')

/-- A whole operation issued in `s` moves the count of `f` as `f`'s producer or consumer may. -/
abbrev WholeCountMove (f : Inst) (i : Instr) (s t : State) : Prop :=
  CountMove (s.issuer = producerOf f true ∧ enqueuesInto f i) (s.issuer = consumerOf f true ∧ dequeuesFrom f i)
    (s.buf f).count (t.buf f).count

/-- A `WRITE` changes no count but that of `OUT`, and that only with a payload and room for it (R114). -/
theorem exec_write_countMove {av : Bool} {p : List Byte} {s t : State} (hex : exec (.write av p) s = .next t)
    (f : Inst) :
    WholeCountMove f (.write av p) s t := by
  obtain ⟨hl, rfl⟩ := (State.whenLegal_next_iff _ _ _ _).mp hex
  obtain ⟨ha, -⟩ := (legality_write_iff av p s).mp hl
  cases av with
  | false => exact .of_eq (by simp)
  | true =>
    rw [if_pos rfl]
    split
    case isFalse => exact .of_eq (by simp)
    case isTrue =>
      cases f with
      | inbound => exact .of_eq (by simp [State.writeOut_eq])
      | outbound =>
        cases p with
        | nil => exact .of_eq (by simp [State.writeOut_eq, Buffer.enqueue, Buffer.enqLoop])
        | cons x p =>
          refine .of_le ?_ ⟨ha, x, p, rfl⟩
          simpa [State.writeOut_eq] using s.outb.count_le_enqueue true (x :: p)

theorem exec_rxirq_countMove {s t : State} (hex : exec .rxirq s = .next t) (f : Inst) :
    WholeCountMove f .rxirq s t := by
  obtain ⟨⟨ha, -⟩, rfl⟩ := (exec_rxirq_next_iff s t).mp hex
  cases f with
  | outbound => exact .of_eq rfl
  | inbound =>
    refine .of_le ?_ ⟨ha, rfl⟩
    show s.inb.count ≤ (if s.per.rxErr then s.inb else (s.inb.enqueue true [s.per.rxData]).1).count
    split
    · exact le_rfl
    · exact s.inb.count_le_enqueue true [s.per.rxData]

theorem exec_txirq_countMove {s t : State} (hex : exec .txirq s = .next t) (f : Inst) :
    WholeCountMove f .txirq s t := by
  obtain ⟨⟨ha, -⟩, rfl⟩ := (exec_txirq_next_iff s t).mp hex
  cases f with
  | inbound => exact .of_eq rfl
  | outbound => exact .of_ge (s.outb.count_dequeue_le .outbound true 1) ⟨ha, rfl⟩

theorem exec_read1_countMove {s t : State} (hex : exec .read1 s = .next t) (f : Inst) :
    WholeCountMove f .read1 s t := by
  obtain ⟨hl, rfl⟩ := (State.whenLegal_next_iff _ _ _ _).mp hex
  obtain ⟨ha, -⟩ := (legality_read1_iff s).mp hl
  cases f with
  | outbound => exact .of_eq (by simp)
  | inbound => exact .of_ge (by simpa using s.inb.count_dequeue_le .inbound true 1) ⟨ha, rfl⟩

/-- An observer touches no buffer (40_buffer_ops.md R95 to R97). -/
theorem exec_observer_keeps_buf {i : Instr} {s t : State} (ho : opOf i = none) (hex : exec i s = .next t) (f : Inst) :
    t.buf f = s.buf f := by
  obtain ⟨g, rfl | rfl | rfl⟩ := (opOf_eq_none_iff i).mp ho <;>
    obtain ⟨-, rfl⟩ := (State.whenLegal_next_iff _ _ _ _).mp hex <;> simp

theorem start_keeps_buf {i : Instr} {s t : State} (hst : start i s = .next t) (f : Inst) : t.buf f = s.buf f := by
  rcases start_next_cases i s t hst with ⟨o, -, -, rfl⟩ | ⟨ho, hex⟩
  · exact s.buf_launch i o f
  · exact exec_observer_keeps_buf ho hex f

theorem exec_countMove {i : Instr} {s t : State} (hb : s.booted = true) (hex : exec i s = .next t) (f : Inst) :
    WholeCountMove f i s t := by
  have hl := legal_of_next (.inl hex)
  cases i with
  | init g => exact absurd hl (not_legal_of_booted hb (.inr ⟨g, rfl⟩))
  | tinit => exact absurd hl (not_legal_of_booted hb (.inl rfl))
  | enq g av p =>
    obtain ⟨-, hb', -⟩ := (legality_enq_iff g av p s).mp hl
    exact absurd (hb.symm.trans hb') (by decide)
  | deq g av m =>
    obtain ⟨-, hb', -⟩ := (legality_deq_iff g av m s).mp hl
    exact absurd (hb.symm.trans hb') (by decide)
  | empty g => exact .of_eq (congrArg Buffer.count (exec_observer_keeps_buf rfl hex f))
  | full g => exact .of_eq (congrArg Buffer.count (exec_observer_keeps_buf rfl hex f))
  | len g => exact .of_eq (congrArg Buffer.count (exec_observer_keeps_buf rfl hex f))
  | write av p => exact exec_write_countMove hex f
  | read1 => exact exec_read1_countMove hex f
  | rxirq => exact exec_rxirq_countMove hex f
  | txirq => exact exec_txirq_countMove hex f

/-! ## Steps -/

/-- The next move of the tape is agent `a`'s: a micro-step of an operation that meets `P`, or a whole operation that
meets `Q`. -/
def State.NextMove (s : State) (a : Agent) (P : Op → Prop) (Q : Instr → Prop) : Prop :=
  (∃ rest o, s.todo = .tick a :: rest ∧ (s.agent a).inflight = some o ∧ P o) ∨
  (∃ c rest i, s.todo = .issue a c :: rest ∧ decode c = .instr i ∧ Q i)

/-- A step raises the count of a buffer only with the producer's E3 or whole operation, and lowers it only with the
consumer's D3 or whole operation. -/
theorem State.Inv.step_count {s t : State} (h : s.Inv) (hb : s.booted = true) (hst : Machine.step s = .next t)
    (f : Inst) :
    CountMove (s.NextMove (producerOf f true) (Op.Increments · f) (enqueuesInto f))
      (s.NextMove (consumerOf f true) (Op.Decrements · f) (dequeuesFrom f)) (s.buf f).count (t.buf f).count := by
  rcases step_next_cases s t hst with ⟨-, rfl⟩ | ⟨a, c, rest, i, hs, hd, he⟩ | ⟨a, c, rest, i, -, -, he⟩ |
    ⟨a, rest, hs, he⟩ | ⟨b, e, rest, -, he⟩ | ⟨rest, -, he⟩
  · exact .of_eq rfl
  · have hmove := exec_countMove (s := s.present a rest) hb he f
    rw [WholeCountMove, State.buf_present] at hmove
    exact hmove.imp (fun ⟨ha, hi⟩ => .inr ⟨c, rest, i, ha ▸ hs, hd, hi⟩)
      fun ⟨ha, hi⟩ => .inr ⟨c, rest, i, ha ▸ hs, hd, hi⟩
  · exact .of_eq (congrArg Buffer.count ((start_keeps_buf he f).trans (s.buf_present a rest f)))
  · obtain ⟨o, ho, -, rfl⟩ := (tick_next_iff _ _ _).mp he
    have hfits : o.fits a true = true := hb ▸ (h.with_todo rest).roles a o ho
    have hmove := microOp_countMove hfits { s with todo := rest } f
    rw [State.buf_advance]
    exact hmove.imp (fun ⟨ha, hinc⟩ => .inl ⟨rest, o, ha ▸ hs, ha ▸ ho, hinc⟩)
      fun ⟨ha, hdec⟩ => .inl ⟨rest, o, ha ▸ hs, ha ▸ ho, hdec⟩
  · obtain ⟨-, rfl⟩ := (receive_next_iff _ _ _ _).mp he
    exact .of_eq (by cases f <;> rfl)
  · obtain ⟨-, rfl⟩ := (transmit_next_iff _ _).mp he
    exact .of_eq (by cases f <;> rfl)

/-- Free space and count fill the capacity (R99). -/
theorem Buffer.free_add_count {b : Buffer} (h : b.count ≤ b.cap) : b.free + b.count = b.cap :=
  Nat.sub_add_cancel h

theorem Buffer.count_lt_of_free_lt {b b' : Buffer} (hk : b'.k = b.k) (h : b'.free < b.free) : b.count < b'.count := by
  have hcap := Buffer.cap_congr hk
  unfold Buffer.free at h
  omega

/-- Settles O48: the capacity is fixed, so less free space is a higher count. -/
theorem freeSpaceIsALowerBound : Obligations.FreeSpaceIsALowerBound := by
  intro s t h hb hst
  obtain ⟨hinUp, hinDown⟩ := h.step_count hb hst .inbound
  obtain ⟨houtUp, houtDown⟩ := h.step_count hb hst .outbound
  refine ⟨fun f => ?_, fun hlt => ?_, fun hlt => ?_, fun hlt => ?_, fun hlt => ?_⟩
  · obtain ⟨-, -, hn⟩ := h.inRange f
    exact Buffer.free_add_count hn
  · rcases houtUp (Buffer.count_lt_of_free_lt (step_keeps_k s t .outbound hst) hlt) with
      ⟨rest, o, hs, ho, av, p, r, rfl, hr⟩ | ⟨c, rest, i, hs, hd, x, p, rfl⟩
    · exact .inl ⟨rest, av, p, r, hs, ho, hr⟩
    · exact .inr ⟨c, rest, x, p, hs, hd⟩
  · rcases hinUp (Buffer.count_lt_of_free_lt (step_keeps_k s t .inbound hst) hlt) with
      ⟨rest, o, hs, ho, x, r, rfl, hr⟩ | ⟨c, rest, i, hs, hd, rfl⟩
    · exact .inl ⟨rest, x, r, hs, ho, hr⟩
    · exact .inr ⟨c, rest, hs, hd⟩
  · rcases houtDown hlt with ⟨rest, o, hs, ho, r, x, rfl, hr⟩ | ⟨c, rest, i, hs, hd, rfl⟩
    · exact .inl ⟨rest, r, x, hs, ho, hr⟩
    · exact .inr ⟨c, rest, hs, hd⟩
  · rcases hinDown hlt with ⟨rest, o, hs, ho, r, x, rfl, hr⟩ | ⟨c, rest, i, hs, hd, rfl⟩
    · exact .inl ⟨rest, r, x, hs, ho, hr⟩
    · exact .inr ⟨c, rest, hs, hd⟩

end Sys2Proof.Machine
end

section
/-! PROOF. The wait W1 of a `WRITE` (41_transport_foreground.md R115, R117, R119): what ends it, and that for more
than C bytes nothing does. -/

namespace Sys2Proof.Machine

section
variable {s t : State}

/-! ## What a busy foreground can do -/

/-- A foreground with an operation in flight issues nothing, not even an observer (20_memory.md R50). -/
theorem issuer_ne_fg_of_busy {i : Instr} (hbusy : s.fg.inflight ≠ none) (hl : legality i s = none) :
    s.issuer ≠ .fg := fun ha => by
  obtain ⟨hne, -⟩ := busy_issuer_cases hl (by rw [ha]; exact hbusy)
  exact hne ha

theorem exec_keeps_busy_fg {i : Instr} (hbusy : s.fg.inflight ≠ none) (hex : exec i s = .next t) : t.fg = s.fg := by
  obtain ⟨hl, -, -, -, hothers⟩ := exec_next_frame i s t hex
  exact hothers .fg (issuer_ne_fg_of_busy hbusy hl).symm

theorem start_keeps_busy_fg {i : Instr} (hbusy : s.fg.inflight ≠ none) (hst : start i s = .next t) :
    t.fg = s.fg := by
  rcases start_next_cases i s t hst with ⟨o, -, hl, rfl⟩ | ⟨-, hex⟩
  · exact s.agent_launch_of_ne i o (d := .fg) (issuer_ne_fg_of_busy hbusy hl).symm
  · exact exec_keeps_busy_fg hbusy hex

/-- A step leaves the foreground where it stands in its operation, or is the foreground's own next micro-step. -/
theorem step_busy_fg_cases {o : Op} (ho : s.fg.inflight = some o) (hst : step s = .next t) :
    t.fg = s.fg ∨ ∃ rest, s.todo = .tick .fg :: rest ∧ t = ({ s with todo := rest } : State).advance .fg o := by
  have hbusy : s.fg.inflight ≠ none := by simp [ho]
  rcases step_next_cases s t hst with ⟨-, rfl⟩ | ⟨a, c, rest, i, -, -, he⟩ | ⟨a, c, rest, i, -, -, he⟩ |
    ⟨a, rest, hs, he⟩ | ⟨b, e, rest, -, he⟩ | ⟨rest, -, he⟩
  · exact .inl rfl
  · exact .inl (exec_keeps_busy_fg (s := s.present a rest) hbusy he)
  · exact .inl (start_keeps_busy_fg (s := s.present a rest) hbusy he)
  · obtain ⟨o', ho', -, rfl⟩ := (tick_next_iff _ _ _).mp he
    by_cases ha : a = .fg
    · subst ha
      cases ho.symm.trans ho'
      exact .inr ⟨rest, hs, rfl⟩
    · exact .inl (State.advance_other { s with todo := rest } a .fg o' (Ne.symm ha))
  · obtain ⟨-, rfl⟩ := (receive_next_iff _ _ _ _).mp he
    exact .inl rfl
  · obtain ⟨-, rfl⟩ := (transmit_next_iff _ _).mp he
    exact .inl rfl

end

/-! ## W1 -/

/-- W1 reads the count of `OUT` again, and goes on to W2 where the free space suffices (R115). -/
theorem State.advance_w1 (s : State) (av : Bool) (p : List Byte) :
    s.advance .fg (.write av p .w1) = s.hold .fg (.write av p
      (if p.length ≤ s.outb.free then .w2 { accepted := 0, pos := .q0 } else .w1)) := rfl

/-- Settles O21: nobody else writes the foreground's record, and its own micro-step is W1. -/
theorem onlyRoomEndsTheWait : Obligations.OnlyRoomEndsTheWait := by
  intro av p s t ho hst
  rcases step_busy_fg_cases ho hst with he | ⟨rest, -, rfl⟩
  · exact .inl (he ▸ ho)
  · rw [State.advance_w1]
    by_cases hroom : p.length ≤ s.outb.free
    · exact .inr ⟨hroom, by simp [hroom]⟩
    · exact .inl (by simp [hroom])

theorem Buffer.free_le_cap (b : Buffer) : b.free ≤ b.cap := Nat.sub_le _ _

/-- Settles O22, by induction on the length of the run: no step changes the capacity, and the free space is never more
than that. -/
theorem oversizedWriteNeverReturns : Obligations.OversizedWriteNeverReturns := by
  intro n av p s t ho hlong hrun
  induction n generalizing s with
  | zero => cases hrun; exact ho
  | succ n ih =>
    obtain ⟨u, hu, hrun⟩ := run_succ_next hrun
    have hcap : u.outb.cap = s.outb.cap := Buffer.cap_congr (step_keeps_k s u .outbound hu)
    rcases onlyRoomEndsTheWait av p s u ho hu with hwait | ⟨hroom, -⟩
    · exact ih u hwait (hcap ▸ hlong) hrun
    · exact absurd (hroom.trans s.outb.free_le_cap) hlong.not_ge

/-- Settles O23: more free space is a lower count, because the capacity is fixed. -/
theorem onlyTheTransmitPathMakesRoom : Obligations.OnlyTheTransmitPathMakesRoom := by
  intro s t h hb hst hroom
  obtain ⟨-, -, -, hlowers, -⟩ := freeSpaceIsALowerBound s t h hb hst
  exact hlowers (Buffer.count_lt_of_free_lt (step_keeps_k s t .outbound hst).symm hroom)

end Sys2Proof.Machine
end

section
/-! PROOF. What `WRITE` and `READ1` answer in an assembled transport (41_transport_foreground.md R112 to R118). -/

namespace Sys2Proof.Machine

section
variable {s : State}

/-! ## `WRITE` -/

theorem State.TransportReady.exec_write (h : s.TransportReady) (av : Bool) (p : List Byte) :
    exec (.write av p) s = .next
      (if av then
        if p.length ≤ s.outb.free then (s.writeOut p).finish .fg (.status .ok)
        else s.hold .fg (.write av p .w1)
      else s.finish .fg (.status .fail)) := by
  obtain ⟨⟨ha, hfg, hact⟩, hb⟩ := h
  have hl := (legality_write_iff av p s).mpr ⟨ha, hb, hfg, hact⟩
  exact (State.whenLegal_of_legal _ _ _ hl).trans (by rw [ha])

end

/-- Settles O20: W0 tests the argument before W1 reads the count. -/
theorem writeNullFailsAtOnce : Obligations.WriteNullFailsAtOnce := fun p _ h => h.exec_write false p

/-- Settles O19: W1 writes the foreground's record alone, and writes back what stands there. -/
theorem writeIsHeldWithoutRoom : Obligations.WriteIsHeldWithoutRoom := by
  refine ⟨fun p s h hshort => ?_, fun p s hfg hact hshort => ?_, fun p s hlong => ?_⟩
  · rw [h.exec_write, if_pos rfl, if_neg hshort.not_ge]
    rfl
  · refine (tick_next_iff .fg s s).mpr ⟨.write true p .w1, congrArg AgentState.inflight hfg, ?_, ?_⟩
    · simp [State.mayMove, hact]
    · rw [State.advance_w1, if_neg hshort.not_ge, State.hold_eq, ← hfg]
      rfl
  · exact s.outb.free_le_cap.trans_lt hlong

/-- Settles O18: with room the loop accepts the whole payload, and W3 and W4 leave the enable set. -/
theorem writeEnqueuesAllAndEnables : Obligations.WriteEnqueuesAllAndEnables := by
  intro p s h hroom hrange hring
  obtain ⟨hw, -, hn⟩ := id hrange
  obtain ⟨hk, hridx, haccepted, -⟩ := s.outb.enqLoop_registers p hn
  have hall : (s.outb.enqLoop p).2 = p.length := haccepted.trans (min_eq_left hroom)
  refine ⟨(s.outb.enqLoop p).1, ?_, ?_, hridx, hk, fun i hi => ?_⟩
  · rw [h.exec_write, if_pos rfl, if_pos hroom, State.writeOut_eq]
    rfl
  · rw [hring.contents_enqLoop hrange, List.take_of_length_le (i := s.outb.cap - s.outb.count) hroom]
  · simp only [s.outb.mask_eq_mod] at hi
    exact Buffer.memRead_enqLoop_of_ne p hw (hall ▸ hi)

/-! ## `READ1` -/

/-- The oldest byte is in the slot of the read index, and a whole `DEQ1` leaves the others. Nothing is asked of the
slots: what they hold is the same before and after. -/
theorem Buffer.contents_eq_cons {b : Buffer} (f : Inst) (hr : b.ridx < b.cap) (hne : b.count ≠ 0) :
    b.contents f = b.readSlot f b.ridx :: b.d2.d3.d4.contents f := by
  obtain ⟨n, hn⟩ := Nat.exists_eq_succ_of_ne_zero hne
  have hrest : ∀ j, (b.ridx + (j + 1)) % b.cap = (b.advance b.ridx + j) % b.cap := fun j =>
    (b.advance_add_mod b.ridx j).symm
  simp only [Buffer.contents, Buffer.mask_eq_mod]
  rw [hn, List.range_succ_eq_map]
  simp [Nat.mod_eq_of_lt hr, hrest, hn, Buffer.readSlot]

theorem State.TransportReady.exec_read1 {s : State} (h : s.TransportReady) :
    exec .read1 s = .next ((s.setBuf .inbound (s.inb.deqLoop .inbound 1).1).finish .fg
      (.byte (s.inb.deqLoop .inbound 1).2.head?)) := by
  obtain ⟨⟨ha, hfg, hact⟩, hb⟩ := h
  have hl := (legality_read1_iff s).mpr ⟨ha, hb, hfg, hact⟩
  exact (State.whenLegal_of_legal _ _ _ hl).trans (by rw [ha]; rfl)

/-- Settles O24: the one-byte `DEQ` of X1 stops at once, or runs D1 to D4 once. -/
theorem readTakesTheOldestByte : Obligations.ReadTakesTheOldestByte := by
  intro s h
  refine ⟨fun hempty => ?_, fun hne hrange => ?_⟩
  · rw [h.exec_read1, Buffer.deqLoop_of_empty hempty]
    rfl
  · obtain ⟨-, hr, -⟩ := hrange
    have hone : s.inb.deqLoop .inbound 1 = (s.inb.d2.d3.d4, [s.inb.readSlot .inbound s.inb.ridx]) := by
      rcases s.inb.deqLoop_one .inbound with ⟨hempty, -⟩ | ⟨-, hone⟩
      · exact absurd hempty hne
      · exact hone
    refine ⟨_, _, Buffer.contents_eq_cons .inbound hr hne, ?_, rfl⟩
    rw [h.exec_read1, hone]
    rfl

end Sys2Proof.Machine
end

section
/-! PROOF. The `ENQ` inside a `WRITE` or an `RXIRQ` returns the length of its payload (41_transport_foreground.md R116,
42_transport_interrupt.md R132). -/

namespace Sys2Proof.Machine

/-- An `ENQ` returns what it has published, whether it stopped or came to the end of its payload (R86). -/
theorem EnqRun.returned_eq_published {b : Buffer} {payload : List Byte} {r : EnqRun} {n : Nat}
    (hr : (r.step true payload b).2 = .inr n) : n = r.published := by
  obtain ⟨k, pos⟩ := r
  cases pos with
  | q2 => cases hx : payload[k]? <;> simp [EnqRun.step, hx] at hr
  | q4 stopped => cases stopped <;> cases hr; rfl
  | q6 => cases hr; rfl
  | _ => cases hr

/-- In an assembled transport an `ENQ` that returns has published its whole payload: it has never stopped, because it
began with room and only itself takes room away. -/
theorem State.Inv.enq_returns_length {s : State} (h : s.Inv) (hb : s.booted = true) {a : Agent} {o : Op}
    (ho : (s.agent a).inflight = some o) {f : Inst} {r : EnqRun} {payload : List Byte}
    (hx : o.enqOn f = some (r, payload)) {n : Nat} (hr : (r.step true payload (s.buf f)).2 = .inr n) :
    n = payload.length := by
  have hproducing := h.roles.producing_of_enqOn ho hx
  obtain ⟨-, hgo⟩ := (State.fullAcceptOk_iff h.roles hb).mp h.fullAccept f r payload hproducing
  have hproducer := (h.ring f (h.initialised_of_enqOn ho hx)).producer
  rw [hproducing] at hproducer
  exact (EnqRun.returned_eq_published hr).trans (EnqRun.published_of_return hproducer hgo hr)

/-- Settles O41: both are inside an `ENQ` of an assembled transport. -/
theorem transportEnqueuesAreWhole : Obligations.TransportEnqueuesAreWhole := by
  intro s h
  refine ⟨fun av p r n ho hr => ?_, fun x r n ho hr => ?_⟩
  · have hb : s.booted = true := by simpa using h.roles .fg _ ho
    exact h.enq_returns_length hb (a := .fg) ho (f := .outbound) rfl hr
  · have hb : s.booted = true := by simpa using h.roles .rxi _ ho
    exact h.enq_returns_length hb (a := .rxi) ho (f := .inbound) rfl hr

end Sys2Proof.Machine
end

section
/-! PROOF. `RXIRQ` (42_transport_interrupt.md R131 to R133, R135): the line error, the full `IN`, and the byte
stored. -/

namespace Sys2Proof.Machine

section
variable {s : State}

/-- A whole `RXIRQ` is served: nothing changes but `IN`, the receive signals and its record. -/
theorem State.RxReady.exec_rxirq (h : s.RxReady) :
    exec .rxirq s = .next
      { s with
        inb := if s.per.rxErr then s.inb else (s.inb.enqueue true [s.per.rxData]).1
        per := { s.per with rxReady := false, rxErr := false }
        rxi := { inflight := none, result := some .nothing } } := by
  refine (exec_rxirq_next_iff _ _).mpr ⟨h, ?_⟩
  obtain ⟨ha, -⟩ := h
  rw [State.serveRx, ← ha]

/-- Without a line error the byte read at RX1 goes to the `ENQ` of RX6, which a full `IN` stops as RX5 does. -/
theorem State.RxReady.exec_rxirq_of_no_error (h : s.RxReady) (herr : s.per.rxErr = false) :
    exec .rxirq s = .next
      { s with
        inb := (s.inb.enqLoop [s.per.rxData]).1
        per := { s.per with rxReady := false }
        rxi := { inflight := none, result := some .nothing } } := by
  have hper : ({ s.per with rxReady := false, rxErr := false } : Peripheral) = { s.per with rxReady := false } := by
    rw [← herr]
  rw [h.exec_rxirq, hper, herr]
  rfl

end

/-- Settles O25: RX2 to RX4 do not look at `IN`. -/
theorem lineErrorDiscardsTheByte : Obligations.LineErrorDiscardsTheByte := by
  intro s h herr
  rw [h.exec_rxirq, if_pos herr]

/-- Settles O26: a full buffer accepts nothing. -/
theorem fullInboundDropsTheByte : Obligations.FullInboundDropsTheByte := by
  intro s h herr hfull
  rw [h.exec_rxirq_of_no_error herr, Buffer.enqLoop_of_full hfull]

/-- Settles O27: with room the `ENQ` of RX6 is one whole `ENQ1`. -/
theorem receivedByteIsStored : Obligations.ReceivedByteIsStored := by
  intro s h herr hroom
  have hone := s.inb.enqLoop_one s.per.rxData hroom.ne
  refine ⟨(s.inb.e1 s.per.rxData).e2.e3.e4, ?_, rfl, rfl, rfl, rfl, Buffer.FlagOk.recomputed _,
    memRead_memWrite_same _ _ _, fun i hi => memRead_memWrite_of_ne _ _ hi, fun hrange hring => ?_⟩
  · rw [h.exec_rxirq_of_no_error herr, hone]
  · obtain ⟨-, -, happended⟩ := hring.enq1 hrange hroom s.per.rxData
    simpa only [Buffer.contents_eq_unread] using happended .inbound

end Sys2Proof.Machine
end

section
/-! PROOF. `TXIRQ` (42_transport_interrupt.md R134, R138; 90_conflicts.md C5): one activation, and as many as there
are bytes to send. -/

namespace Sys2Proof.Machine

/-! ## One activation -/

section
variable {s : State}

theorem State.TxReady.exec_txirq (h : s.TxReady) :
    exec .txirq s = .next
      { s with
        outb := (s.outb.deqLoop .outbound 1).1
        per := s.per.afterTx (s.outb.deqLoop .outbound 1).2
        txi := { inflight := none, result := some .nothing } } := by
  refine (exec_txirq_next_iff _ _).mpr ⟨h, ?_⟩
  obtain ⟨ha, -⟩ := h
  rw [State.serveTx, ← ha]
  rfl

/-- On a non-empty `OUT` the `DEQ` of TX1 runs D1 to D4 once, and TX3 hands its byte over. -/
theorem State.TxReady.exec_txirq_of_nonempty (h : s.TxReady) (hne : s.outb.count ≠ 0) :
    exec .txirq s = .next
      { s with
        outb := s.outb.d2.d3.d4
        per := { s.per with txData := s.outb.readSlot .outbound s.outb.ridx, txEmpty := false }
        txi := { inflight := none, result := some .nothing } } := by
  rcases s.outb.deqLoop_one .outbound with ⟨hempty, -⟩ | ⟨-, hone⟩
  · exact absurd hempty hne
  · rw [h.exec_txirq, hone]
    rfl

end

/-- Settles O28: the byte read at D1 is the first of the contents. -/
theorem transmitSendsTheOldestByte : Obligations.TransmitSendsTheOldestByte := by
  intro s h hne ⟨_, hr, _⟩
  exact ⟨_, _, Buffer.contents_eq_cons .outbound hr hne, h.exec_txirq_of_nonempty hne, rfl⟩

/-- Settles O29: the `DEQ` of TX1 stops at once, and TX5 follows. -/
theorem transmitDisablesOnEmpty : Obligations.TransmitDisablesOnEmpty := by
  intro s h hempty
  rw [h.exec_txirq, Buffer.deqLoop_of_empty hempty]
  rfl

/-! ## A sequence of activations -/

/-- What lets the transmit path be served again and again, once `PER` has taken the byte before. -/
structure State.CanTransmit (s : State) : Prop where
  booted : s.booted = true
  idle : s.txi.inflight = none
  enabled : s.per.txIrqEn = true
  ridx : s.outb.ridx < s.outb.cap

section
variable {s : State}

/-- `PER` has taken the byte before, and the transmit path issues. -/
def State.requestTx (s : State) : State := { s with issuer := .txi, per := { s.per with txEmpty := true } }

theorem State.CanTransmit.txReady (h : s.CanTransmit) : s.requestTx.TxReady :=
  ⟨rfl, h.booted, h.idle, rfl, h.enabled⟩

/-- An activation with bytes in `OUT` sends the first and leaves the rest, and the path can transmit again. -/
theorem State.CanTransmit.sends (h : s.CanTransmit) {x : Byte} {rest : List Byte}
    (hc : s.outb.contents .outbound = x :: rest) :
    ∃ t, exec .txirq s.requestTx = .next t ∧ t.per.txData = x ∧ t.outb.contents .outbound = rest ∧
      t.CanTransmit := by
  have hne : s.outb.count ≠ 0 := by
    rw [← Buffer.length_contents .outbound, hc]
    exact Nat.succ_ne_zero _
  obtain ⟨hx, hrest⟩ := List.cons.inj ((Buffer.contents_eq_cons .outbound h.ridx hne).symm.trans hc)
  exact ⟨_, h.txReady.exec_txirq_of_nonempty hne, hx, hrest, h.booted, rfl, h.enabled, s.outb.advance_lt _⟩

/-- An activation with `OUT` empty disables the interrupt and sends nothing. -/
theorem State.CanTransmit.disables (h : s.CanTransmit) (hc : s.outb.contents .outbound = []) :
    ∃ v, exec .txirq s.requestTx = .next v ∧ v.per.txIrqEn = false ∧ v.per.txData = s.per.txData ∧
      v.outb = s.outb := by
  have hempty : s.outb.count = 0 := by rw [← Buffer.length_contents .outbound, hc, List.length_nil]
  exact ⟨_, transmitDisablesOnEmpty _ h.txReady hempty, rfl, rfl, rfl⟩

theorem drain_succ {t : State} (n : Nat) (h : exec .txirq s.requestTx = .next t) :
    drain (n + 1) s = (drain n t).map (fun p => (p.1, t.per.txData :: p.2)) := by
  rw [State.requestTx] at h
  simp only [drain, h]

/-- As many activations as there are bytes in `OUT` send them all, in order (R138). -/
theorem State.CanTransmit.drain_contents {bytes : List Byte} (h : s.CanTransmit)
    (hc : s.outb.contents .outbound = bytes) :
    ∃ u, drain bytes.length s = some (u, bytes) ∧ u.outb.contents .outbound = [] ∧ u.CanTransmit := by
  induction bytes generalizing s with
  | nil => exact ⟨s, rfl, hc, h⟩
  | cons x rest ih =>
    obtain ⟨t, hex, rfl, hrest, ht⟩ := h.sends hc
    obtain ⟨u, hdrain, hu⟩ := ih ht hrest
    exact ⟨u, by rw [List.length_cons, drain_succ _ hex, hdrain]; rfl, hu⟩

theorem State.CanTransmit.drain_one (h : s.CanTransmit) {x : Byte} {rest : List Byte}
    (hc : s.outb.contents .outbound = x :: rest) :
    ∃ u, drain 1 s = some (u, [x]) ∧ u.per.txData = x ∧ u.outb.contents .outbound = rest ∧ u.CanTransmit := by
  obtain ⟨t, hex, rfl, ht⟩ := h.sends hc
  exact ⟨t, drain_succ 0 hex, rfl, ht⟩

/-! ## After a `WRITE` -/

/-- A `WRITE` with room leaves its payload behind what was in `OUT`, and the transmit path able to send it (R112). -/
theorem State.TransportReady.write_canTransmit (h : s.TransportReady) {p : List Byte} (htx : s.txi.inflight = none)
    (hroom : p.length ≤ s.outb.free) (hrange : s.outb.InRange) (hring : RingOk s.outb none none) :
    ∃ t, exec (.write true p) s = .next t ∧ t.fg.result = some (.status .ok) ∧
      t.outb.contents .outbound = s.outb.contents .outbound ++ p ∧ t.CanTransmit := by
  obtain ⟨b', hex, hc, hridx, hk, -⟩ := writeEnqueuesAllAndEnables p s h hroom hrange hring
  obtain ⟨-, hb⟩ := h
  obtain ⟨-, hr, -⟩ := hrange
  have hr' : b'.ridx < b'.cap := by rwa [hridx, Buffer.cap_congr hk]
  exact ⟨_, hex, rfl, hc, hb, htx, rfl, hr'⟩

end

/-- Settles O30: after the `WRITE` the contents are the old ones and then the payload, and the activations send the
contents. -/
theorem writtenBytesAreSentInOrder : Obligations.WrittenBytesAreSentInOrder := by
  intro p s h htx hroom hrange hring
  obtain ⟨t, hex, -, hc, ht⟩ := h.write_canTransmit htx hroom hrange hring
  obtain ⟨u, hdrain, hempty, hu⟩ := ht.drain_contents hc
  obtain ⟨v, hlast, hoff, -, hsame⟩ := hu.disables hempty
  rw [List.length_append, Buffer.length_contents] at hdrain
  refine ⟨t, u, v, hex, hdrain, ?_, hu.enabled, hlast, hoff, hsame⟩
  rw [← Buffer.length_contents .outbound, hempty, List.length_nil]

/-- Settles O58: two bytes after the `WRITE`, one after the first activation, none after the second. -/
theorem endToEndAtCapacityEight : Obligations.EndToEndAtCapacityEight := by
  intro s h htx hout _
  have hrange : s.outb.InRange := by rw [hout]; exact ⟨by decide, by decide, by decide⟩
  have hring : RingOk s.outb none none := by rw [hout]; exact .of_isReset ⟨rfl, rfl, rfl, rfl⟩
  have hroom : [0x6F#8, 0x6B#8].length ≤ s.outb.free := by rw [hout]; decide
  have hnew : s.outb.contents .outbound = [] := by rw [hout]; rfl
  obtain ⟨t, hex, hok, hc, ht⟩ := h.write_canTransmit htx hroom hrange hring
  rw [hnew, List.nil_append] at hc
  obtain ⟨u₁, hfirst, -, hc₁, hu₁⟩ := ht.drain_one hc
  obtain ⟨u₂, hsecond, hk, hc₂, hu₂⟩ := hu₁.drain_one hc₁
  obtain ⟨u₃, hthird, hoff, hdata, hsame⟩ := hu₂.disables hc₂
  have hcount : t.outb.count = 2 := by rw [← Buffer.length_contents .outbound, hc]; rfl
  have hcount₁ : u₁.outb.count = 1 := by rw [← Buffer.length_contents .outbound, hc₁]; rfl
  have hcount₂ : u₂.outb.count = 0 := by rw [← Buffer.length_contents .outbound, hc₂]; rfl
  exact ⟨t, u₁, u₂, u₃, hex, hok, hcount, ht.enabled, hfirst, hcount₁, hu₁.enabled, hsecond, hcount₂, hu₂.enabled,
    hthird, hoff, hdata.trans hk, hsame⟩

end Sys2Proof.Machine
end

section
/-! PROOF. The transmit interrupt enable: what sets it and what clears it once `TINIT` has returned
(42_transport_interrupt.md R136, 30_encoding.md R73), and that it is clear only with `OUT` empty (R137). -/

namespace Sys2Proof.Machine

/-- Settles O37: the outbound rule of the invariant, at the end of the run. -/
theorem disabledTransmitMeansEmptyOutbound : Obligations.DisabledTransmitMeansEmptyOutbound :=
  fun n _ _ h hrun => (h.run n hrun).outbound.idleEmpty

theorem microOp_txIrqEn_cases {o : Op} {a : Agent} (hfits : o.fits a true = true) (s : State) :
    (microOp o s).1.per.txIrqEn = s.per.txIrqEn ∨
    ((microOp o s).1.per.txIrqEn = true ∧ a = .fg ∧ ∃ av p, o = .write av p .w4) ∨
    ((microOp o s).1.per.txIrqEn = false ∧ a = .txi ∧ o = .txirq .tx5) := by
  cases o <;> simp at hfits <;> subst hfits
  case write av payload p =>
    cases p with
    | w4 => exact .inr (.inl ⟨rfl, rfl, av, payload, rfl⟩)
    | _ => exact .inl rfl
  case read1 p =>
    cases p with
    | x2 bytes => cases bytes <;> exact .inl rfl
    | _ => exact .inl rfl
  case rxirq p => cases p <;> exact .inl rfl
  case txirq p =>
    cases p with
    | tx2 bytes => cases bytes <;> exact .inl rfl
    | tx5 => exact .inr (.inr ⟨rfl, rfl, rfl⟩)
    | _ => exact .inl rfl

theorem exec_txIrqEn_cases {i : Instr} {s t : State} (hb : s.booted = true) (hex : exec i s = .next t) :
    t.per.txIrqEn = s.per.txIrqEn ∨
    (t.per.txIrqEn = true ∧ s.issuer = .fg ∧ ∃ p, i = .write true p) ∨
    (t.per.txIrqEn = false ∧ s.issuer = .txi ∧ i = .txirq ∧ s.outb.count = 0) := by
  cases i
  case tinit => exact absurd (legal_of_next (.inl hex)) (not_legal_of_booted hb (.inl rfl))
  case write av p =>
    obtain ⟨hl, rfl⟩ := (State.whenLegal_next_iff _ _ _ _).mp hex
    obtain ⟨ha, -⟩ := (legality_write_iff av p s).mp hl
    cases av with
    | false => exact .inl (by simp)
    | true =>
      rw [if_pos rfl]
      split
      · exact .inr (.inl ⟨by simp [State.writeOut_eq], ha, p, rfl⟩)
      · exact .inl (by simp)
  case rxirq =>
    obtain ⟨-, rfl⟩ := (exec_rxirq_next_iff s t).mp hex
    exact .inl rfl
  case txirq =>
    obtain ⟨⟨ha, -⟩, rfl⟩ := (exec_txirq_next_iff s t).mp hex
    have hper : s.serveTx.per = s.per.afterTx (s.outb.deqLoop .outbound 1).2 := rfl
    rw [hper]
    rcases s.outb.deqLoop_one .outbound with ⟨hempty, hnone⟩ | ⟨-, hone⟩
    · exact .inr (.inr ⟨by rw [hnone]; rfl, ha, rfl, hempty⟩)
    · exact .inl (by rw [hone]; rfl)
  all_goals
    obtain ⟨-, rfl⟩ := (State.whenLegal_next_iff _ _ _ _).mp hex
    exact .inl (by simp)

theorem start_keeps_txIrqEn {i : Instr} {s t : State} (hst : start i s = .next t) :
    t.per.txIrqEn = s.per.txIrqEn := by
  rcases start_next_cases i s t hst with ⟨o, -, -, rfl⟩ | ⟨ho, hex⟩
  · rw [State.per_launch]
  · obtain ⟨f, rfl | rfl | rfl⟩ := (opOf_eq_none_iff i).mp ho <;>
      obtain ⟨-, rfl⟩ := (State.whenLegal_next_iff _ _ _ _).mp hex <;> simp

/-- A step leaves the enable as it is, or sets it with W4 or a whole `WRITE`, or clears it with TX5 or a whole `TXIRQ`
on an empty `OUT`. -/
theorem State.Inv.step_txIrqEn {s t : State} (h : s.Inv) (hb : s.booted = true) (hst : Machine.step s = .next t) :
    t.per.txIrqEn = s.per.txIrqEn ∨
    (t.per.txIrqEn = true ∧ s.NextMove .fg (fun o => ∃ av p, o = .write av p .w4) (fun i => ∃ p, i = .write true p)) ∨
    (t.per.txIrqEn = false ∧ s.NextMove .txi (· = .txirq .tx5) (fun i => i = .txirq ∧ s.outb.count = 0)) := by
  rcases step_next_cases s t hst with ⟨-, rfl⟩ | ⟨a, c, rest, i, hs, hd, he⟩ | ⟨a, c, rest, i, -, -, he⟩ |
    ⟨a, rest, hs, he⟩ | ⟨b, e, rest, -, he⟩ | ⟨rest, -, he⟩
  · exact .inl rfl
  · rcases exec_txIrqEn_cases (s := s.present a rest) hb he with hsame | ⟨hon, rfl, hi⟩ | ⟨hoff, rfl, hi⟩
    · exact .inl hsame
    · exact .inr (.inl ⟨hon, .inr ⟨c, rest, i, hs, hd, hi⟩⟩)
    · exact .inr (.inr ⟨hoff, .inr ⟨c, rest, i, hs, hd, hi⟩⟩)
  · exact .inl (start_keeps_txIrqEn (s := s.present a rest) he)
  · obtain ⟨o, ho, -, rfl⟩ := (tick_next_iff _ _ _).mp he
    have hfits : o.fits a true = true := hb ▸ (h.with_todo rest).roles a o ho
    rw [State.per_advance]
    rcases microOp_txIrqEn_cases hfits { s with todo := rest } with hsame | ⟨hon, rfl, hw4⟩ | ⟨hoff, rfl, htx5⟩
    · exact .inl hsame
    · exact .inr (.inl ⟨hon, .inl ⟨rest, o, hs, ho, hw4⟩⟩)
    · exact .inr (.inr ⟨hoff, .inl ⟨rest, o, hs, ho, htx5⟩⟩)
  · obtain ⟨-, rfl⟩ := (receive_next_iff _ _ _ _).mp he
    exact .inl rfl
  · obtain ⟨-, rfl⟩ := (transmit_next_iff _ _).mp he
    exact .inl rfl

/-- Settles O53: of the three ways a step can leave the enable, a change is one of the last two. -/
theorem onlyWriteAndTxirqSwitchTransmit : Obligations.OnlyWriteAndTxirqSwitchTransmit := by
  intro s t h hb hst
  rcases h.step_txIrqEn hb hst with hsame | ⟨hon, hnext⟩ | ⟨hoff, hnext⟩
  · exact ⟨fun h0 h1 => by simp [hsame, h0] at h1, fun h1 h0 => by simp [hsame, h1] at h0⟩
  · refine ⟨fun _ _ => ?_, fun _ h0 => by simp [hon] at h0⟩
    rcases hnext with ⟨rest, o, hs, ho, av, p, rfl⟩ | ⟨c, rest, i, hs, hd, p, rfl⟩
    · exact .inl ⟨rest, av, p, hs, ho⟩
    · exact .inr ⟨c, rest, p, hs, hd⟩
  · refine ⟨fun _ h1 => by simp [hoff] at h1, fun _ _ => ?_⟩
    rcases hnext with ⟨rest, o, hs, ho, rfl⟩ | ⟨c, rest, i, hs, hd, rfl, hempty⟩
    · exact .inl ⟨rest, hs, ho⟩
    · exact .inr ⟨c, rest, hs, hd, hempty⟩

end Sys2Proof.Machine
end

section
/-! PROOF. The interrupt context (60_exceptions.md R153, R154, R158 to R161): what enters it, what leaves it and what runs
in it; the requests it serves; and the moves of the peripheral that raise them. -/

namespace Sys2Proof.Machine

section
variable {i : Instr} {s t : State} {a : Agent}

/-! ## What a handler may issue -/

/-- A handler may issue its own activation, with its request pending, or an observer inside its innermost activation
(30_encoding.md R68, R161; log 13). -/
theorem handler_legal_cases (ha : s.issuer ≠ .fg) (hl : legality i s = none) :
    (i = .rxirq ∧ s.RxReady) ∨ (i = .txirq ∧ s.TxReady) ∨ (opOf i = none ∧ s.InActivation) := by
  have hobserver : ∀ f, firstRefusal (s.observerRefusals f) = none → s.InActivation := fun f h => by
    obtain ⟨-, ⟨hfg, -⟩ | hin⟩ := (observer_legal_iff f s).mp h
    · exact absurd hfg ha
    · exact hin
  cases i with
  | rxirq => exact .inl ⟨rfl, (legality_rxirq_iff s).mp hl⟩
  | txirq => exact .inr (.inl ⟨rfl, (legality_txirq_iff s).mp hl⟩)
  | empty f => exact .inr (.inr ⟨rfl, hobserver f hl⟩)
  | full f => exact .inr (.inr ⟨rfl, hobserver f hl⟩)
  | len f => exact .inr (.inr ⟨rfl, hobserver f hl⟩)
  | _ => exact absurd (by simpa [mayIssue] using mayIssue_of_legal hl) ha

theorem start_observer (ho : opOf i = none) : start i s = exec i s := by
  simp only [start, ho]

/-- Whoever calls an observer goes on where it stood (40_buffer_ops.md R98; log 13). -/
theorem exec_observer_keeps_inflight (ho : opOf i = none) (hex : exec i s = .next t) :
    (t.agent s.issuer).inflight = (s.agent s.issuer).inflight := by
  obtain ⟨f, rfl | rfl | rfl⟩ := (opOf_eq_none_iff i).mp ho <;>
    obtain ⟨-, rfl⟩ := (State.whenLegal_next_iff _ _ _ _).mp hex <;> simp

/-! ## Entry -/

theorem start_of_legal {o : Op} (hl : legality i s = none) (ho : opOf i = some o) :
    start i s = .next (s.launch i o) := by
  simp only [start, ho, State.whenLegal_of_legal _ _ _ hl]

/-- Of the operations, `INIT` and `TINIT` alone touch the boot flags as they start (log 12). -/
theorem State.launch_eq (o : Op) (ha : s.issuer = a) (hun : s.unready i = s) : s.launch i o = (s.hold a o).enter a := by
  rw [State.launch, hun, ha]

/-- To start an operation leaves the stack of activations, or is the entry of a handler whose request is pending. -/
theorem start_active_cases (hst : start i s = .next t) :
    t.active = s.active ∨ (i = .rxirq ∧ s.RxReady ∧ t.active = .rxi :: s.active) ∨
    (i = .txirq ∧ s.TxReady ∧ t.active = .txi :: s.active) := by
  rcases start_next_cases i s t hst with ⟨o, ho, hl, rfl⟩ | ⟨-, hex⟩
  · by_cases ha : s.issuer = .fg
    · exact .inl (by simp [State.launch, ha])
    · rcases handler_legal_cases ha hl with ⟨rfl, hready⟩ | ⟨rfl, hready⟩ | ⟨hnone, -⟩
      · exact .inr (.inl ⟨rfl, hready, by rw [State.launch_eq o hready.1 rfl]; rfl⟩)
      · exact .inr (.inr ⟨rfl, hready, by rw [State.launch_eq o hready.1 rfl]; rfl⟩)
      · simp [hnone] at ho
  · obtain ⟨-, hactive, -⟩ := exec_next_frame i s t hex
    exact .inl hactive

/-! ## Return -/

/-- A micro-step leaves the stack of activations, or is the return of the innermost handler. -/
theorem tick_active_cases (ht : tick a s = .next t) :
    t.active = s.active ∨ (a ≠ .fg ∧ s.active = a :: t.active ∧ (t.agent a).inflight = none) := by
  obtain ⟨o, -, hm, rfl⟩ := (tick_next_iff a s t).mp ht
  obtain ⟨-, -, -, hactive, -⟩ := microOp_frame o s
  rcases s.advance_cases a o with ⟨o', -, he⟩ | ⟨r, hres, he⟩
  · exact .inl (by simp [he, hactive])
  · by_cases ha : a = .fg
    · subst ha
      exact .inl (by simp [he, hactive])
    · obtain ⟨rest, hrest⟩ := (s.mayMove_handler_iff a ha).mp hm
      refine .inr ⟨ha, ?_, by simp [hres]⟩
      cases a with
      | fg => exact absurd rfl ha
      | rxi => simp [he, hactive, hrest]
      | txi => simp [he, hactive, hrest]

/-- The innermost agent's micro-step that returns and touches nothing ends its activation (R159). -/
theorem tick_return {rest : List Agent} {o : Op} {r : Result} (hact : s.active = a :: rest)
    (ho : (s.agent a).inflight = some o) (hres : microOp o s = (s, .inr r)) :
    tick a s = .next ((s.finish a r).leave a) :=
  (tick_next_iff _ _ _).mpr ⟨o, ho, by simp [State.mayMove, hact], by simp only [State.advance, hres]⟩

theorem microOp_rx5_of_full (b : Byte) (hfull : s.inb.count = s.inb.cap) :
    microOp (.rxirq (.rx5 b)) s = (s, .inr .nothing) := by
  simp only [microOp, microRxirq, if_pos ((Buffer.isFull_iff s.inb).mpr hfull)]

end

/-! ## The stack of activations -/

/-- Settles O51: the stack moves with the start of a handler and with its return, and what goes on is legal. -/
theorem interruptContextServesRequestsOnly : Obligations.InterruptContextServesRequestsOnly := by
  refine ⟨fun s t hst => ?_, fun i s t ha h => ?_⟩
  · rcases step_next_cases s t hst with ⟨-, rfl⟩ | ⟨a, c, rest, i, -, -, he⟩ | ⟨a, c, rest, i, hs, hd, he⟩ |
      ⟨a, rest, hs, he⟩ | ⟨b, e, rest, -, he⟩ | ⟨rest, -, he⟩
    · exact .inl rfl
    · obtain ⟨-, hactive, -⟩ := exec_next_frame i _ t he
      exact .inl hactive
    · rcases start_active_cases (s := s.present a rest) he with hsame | ⟨rfl, ⟨rfl, -, -, hreq⟩, hactive⟩ |
        ⟨rfl, ⟨rfl, -, -, hempty, hen⟩, hactive⟩
      · exact .inl hsame
      · exact .inr (.inl ⟨c, rest, hs, hd, hreq, hactive⟩)
      · exact .inr (.inr (.inl ⟨c, rest, hs, hd, hempty, hen, hactive⟩))
    · rcases tick_active_cases (s := { s with todo := rest }) he with hsame | ⟨ha, hactive, hidle⟩
      · exact .inl hsame
      · exact .inr (.inr (.inr ⟨a, rest, hs, ha, hactive, hidle⟩))
    · obtain ⟨-, rfl⟩ := (receive_next_iff _ _ _ _).mp he
      exact .inl rfl
    · obtain ⟨-, rfl⟩ := (transmit_next_iff _ _).mp he
      exact .inl rfl
  · rcases handler_legal_cases ha (legal_of_next h) with ⟨rfl, hissuer, hb, -, hreq⟩ |
      ⟨rfl, hissuer, hb, -, hempty, hen⟩ | ⟨ho, -, hb, hhead⟩
    · exact ⟨hb, .inl ⟨rfl, hissuer, hreq⟩⟩
    · exact ⟨hb, .inr (.inl ⟨rfl, hissuer, hempty, hen⟩)⟩
    · have hex : exec i s = .next t := by simpa only [start_observer ho, or_self] using h
      obtain ⟨-, hactive, -⟩ := exec_next_frame i s t hex
      exact ⟨hb, .inr (.inr ⟨(opOf_eq_none_iff i).mp ho, hhead, hactive, exec_observer_keeps_inflight ho hex⟩)⟩

/-- Settles O50: entry pushes the handler and its fresh record; each return is a micro-step that touches nothing. -/
theorem activationEntryAndReturnSaveNothing : Obligations.ActivationEntryAndReturnSaveNothing := by
  refine ⟨fun s h => ?_, fun s h => ?_, fun s rest hact hpos => ?_, fun s rest hact hpos => ?_⟩
  · rw [start_of_legal ((legality_rxirq_iff s).mpr h) rfl, State.launch_eq _ h.1 rfl]
    rfl
  · rw [start_of_legal ((legality_txirq_iff s).mpr h) rfl, State.launch_eq _ h.1 rfl]
    rfl
  · have hreturn : tick .rxi s = .next ((s.finish .rxi .nothing).leave .rxi) := by
      rcases hpos with ho | ho | ⟨⟨b, ho⟩, hfull⟩
      · exact tick_return hact ho rfl
      · exact tick_return hact ho rfl
      · exact tick_return hact ho (microOp_rx5_of_full b hfull)
    rw [hreturn]
    simp only [State.leave, State.finish, State.setAgent, hact, List.tail_cons]
  · have hreturn : tick .txi s = .next ((s.finish .txi .nothing).leave .txi) := by
      rcases hpos with ho | ho <;> exact tick_return hact ho rfl
    rw [hreturn]
    simp only [State.leave, State.finish, State.setAgent, hact, List.tail_cons]

/-! ## The requests -/

/-- TX3 clears `tx_empty` and TX5 clears the enable (42_transport_interrupt.md R134), so the request is served. -/
theorem Peripheral.txRequest_afterTx (p : Peripheral) (bytes : List Byte) : (p.afterTx bytes).txRequest = false := by
  cases bytes with
  | nil => exact Bool.and_false _
  | cons x rest => rfl

/-- Settles O52: legality asks for the request, and RX1, or TX3 or TX5, clears it. -/
theorem activationNeedsAndClearsItsRequest : Obligations.ActivationNeedsAndClearsItsRequest := by
  refine fun s t => ⟨fun hex => ?_, fun hex => ?_, fun hst => ?_, fun hst => ?_⟩
  · obtain ⟨⟨-, hb, -, hreq⟩, rfl⟩ := (exec_rxirq_next_iff s t).mp hex
    exact ⟨hreq, hb, rfl⟩
  · obtain ⟨⟨-, hb, -, hempty, hen⟩, rfl⟩ := (exec_txirq_next_iff s t).mp hex
    exact ⟨hempty, hen, hb, s.per.txRequest_afterTx _⟩
  · obtain ⟨-, hb, -, hreq⟩ := (legality_rxirq_iff s).mp (legal_of_next (.inr hst))
    exact ⟨hreq, hb⟩
  · obtain ⟨-, hb, -, hempty, hen⟩ := (legality_txirq_iff s).mp (legal_of_next (.inr hst))
    exact ⟨hempty, hen, hb⟩

/-! ## The peripheral -/

/-- A byte not yet read keeps `PER` from presenting another (log 15). -/
theorem receive_of_rxReady {s : State} (b : Byte) (e : Bool) (h : s.per.rxReady = true) :
    receive b e s = .refused .perNotReady :=
  if_pos h

/-- With nothing to send `PER` has nothing to consume (log 15). -/
theorem transmit_of_txEmpty {s : State} (h : s.per.txEmpty = true) : transmit s = .refused .perNotReady :=
  if_pos h

/-- Settles O54: `receive` and `transmit` are those moves, each open while its signal is false. -/
theorem peripheralMovesOnlyItsSignals : Obligations.PeripheralMovesOnlyItsSignals := fun _ b e _ =>
  ⟨fun h => (receive_next_iff b e _ _).mpr ⟨h, rfl⟩, fun h => receive_of_rxReady b e h,
    fun h => (transmit_next_iff _ _).mpr ⟨h, rfl⟩, fun h => transmit_of_txEmpty h⟩

end Sys2Proof.Machine
end

section
/-! PROOF. The full-flag race on `IN` (70_reset_and_hazards.md R190; 95_test_vectors.md X1): an `RXIRQ` activation
between D3 and D4 of a `READ1`, as a schedule of moves. -/

namespace Sys2Proof.Machine

/-! ## Schedules -/

/-- A run of `m` steps and `n` more. -/
theorem run_add {m n : Nat} {s t u : State} (h : Host.Core.run core m s = .next u)
    (hmore : Host.Core.run core n u = .next t) : Host.Core.run core (m + n) s = .next t := by
  induction m generalizing s with
  | zero => cases h; rwa [Nat.zero_add]
  | succ m ih =>
    obtain ⟨v, hv, hrun⟩ := run_succ_next h
    have hcore : core.step s = .next v := hv
    rw [Nat.add_right_comm]
    simpa only [Host.Core.run, hcore] using ih hrun

/-- The moves of the tape lead from `s` to `t`, whatever moves follow them. What stands on the tapes of `s` and `t`
themselves plays no part. -/
def Plays (tape : List Event) (s t : State) : Prop :=
  ∀ rest, Host.Core.run core tape.length { s with todo := tape ++ rest } = .next { t with todo := rest }

theorem Plays.nil (s : State) : Plays [] s s := fun _ => rfl

theorem Plays.append {tape more : List Event} {s t u : State} (h : Plays tape s u) (hmore : Plays more u t) :
    Plays (tape ++ more) s t := fun rest => by
  rw [List.length_append, List.append_assoc]
  exact run_add (h (more ++ rest)) (hmore rest)

theorem Plays.cons {e : Event} {tape : List Event} {s t u : State}
    (hstep : ∀ rest, step { s with todo := e :: rest } = .next { u with todo := rest }) (h : Plays tape u t) :
    Plays (e :: tape) s t := by
  have hone : Plays [e] s u := fun rest => by
    have hcore : core.step { s with todo := e :: rest } = .next { u with todo := rest } := hstep rest
    simp only [List.length_singleton, List.singleton_append, Host.Core.run, hcore]
  exact hone.append h

section
variable {s t : State} {tape : List Event} {b b' : Buffer}

/-! ## A `READ1` in flight -/

/-- The foreground stands in a `READ1` before the micro-step `p`, and `IN` is `b`. -/
def State.reading (s : State) (b : Buffer) (p : ReadPos) : State := (s.setBuf .inbound b).hold .fg (.read1 p)

/-- `READ1` is issued: the foreground stands before the first line of X1 (41_transport_foreground.md R118). -/
theorem Plays.start_read1 (hq : s.Quiet) (hb : s.booted = true)
    (h : Plays tape (({ s with issuer := .fg } : State).reading s.inb (.x1 ⟨[], .p0⟩)) t) :
    Plays (.start .fg (encode .read1) :: tape) s t := by
  obtain ⟨hfg, -, -, hact⟩ := hq
  refine .cons (fun rest => ?_) h
  have hl : legality .read1 (s.present .fg rest) = none := (legality_read1_iff _).mpr ⟨rfl, hb, hfg, hact⟩
  exact start_of_legal hl rfl

/-- A micro-step of the `READ1` that goes on. -/
theorem Plays.tick_read1 {p p' : ReadPos} (hact : s.active = [])
    (hmicro : ∀ u : State, u.inb = b → microRead1 p u = (u.setBuf .inbound b', .inl (.read1 p')))
    (h : Plays tape (s.reading b' p') t) : Plays (.tick .fg :: tape) (s.reading b p) t := by
  refine .cons (fun rest => ?_) h
  have hm : ({ s.reading b p with todo := rest } : State).mayMove .fg = true := by
    simp [State.mayMove, State.reading, hact]
  have hadvance : ({ s.reading b p with todo := rest } : State).advance .fg (.read1 p) =
      { s.reading b' p' with todo := rest } := by
    simp only [State.advance, microOp, hmicro { s.reading b p with todo := rest } rfl]
    rfl
  exact (tick_next_iff _ _ _).mpr ⟨.read1 p, rfl, hm, hadvance.symm⟩

/-- X1 goes on with the next line of its `DEQ` (40_buffer_ops.md R92). -/
theorem Plays.x1_goes {r r' : DeqRun} (hact : s.active = []) (hline : r.step .inbound true 1 b = (b', .inl r'))
    (h : Plays tape (s.reading b' (.x1 r')) t) : Plays (.tick .fg :: tape) (s.reading b (.x1 r)) t :=
  .tick_read1 hact (fun u hu => by simp only [microRead1, hu, hline]) h

/-- The `DEQ` of X1 returns, and X2 follows. -/
theorem Plays.x1_returns {r : DeqRun} {out : List Byte} (hact : s.active = [])
    (hline : r.step .inbound true 1 b = (b', .inr out)) (h : Plays tape (s.reading b' (.x2 out)) t) :
    Plays (.tick .fg :: tape) (s.reading b (.x1 r)) t :=
  .tick_read1 hact (fun u hu => by simp only [microRead1, hu, hline]) h

/-- X2: a byte has been removed. -/
theorem Plays.x2_goes {x : Byte} {out : List Byte} (hact : s.active = []) (h : Plays tape (s.reading b (.x3 x)) t) :
    Plays (.tick .fg :: tape) (s.reading b (.x2 (x :: out))) t :=
  .tick_read1 hact (fun u hu => by subst hu; rfl) h

/-- X3: the byte is returned. -/
theorem Plays.x3_returns {x : Byte} (hact : s.active = []) :
    Plays [.tick .fg] (s.reading b (.x3 x)) ((s.setBuf .inbound b).finish .fg (.byte (some x))) := by
  refine .cons (fun rest => ?_) (.nil _)
  have hm : ({ s.reading b (.x3 x) with todo := rest } : State).mayMove .fg = true := by
    simp [State.mayMove, State.reading, hact]
  exact (tick_next_iff _ _ _).mpr ⟨.read1 (.x3 x), rfl, hm, rfl⟩

/-! ## The three parts of the race -/

/-- The foreground up to D3, with a byte to read: it holds the oldest byte and stands before D4. -/
theorem plays_read1_to_d4 (hq : s.Quiet) (hb : s.booted = true) (hne : s.inb.count ≠ 0) :
    Plays (.start .fg (encode .read1) :: List.replicate 7 (.tick .fg)) s
      (({ s with issuer := .fg } : State).reading s.inb.d2.d3 (.x1 ⟨[], .d4 (s.inb.d1 .inbound)⟩)) := by
  obtain ⟨-, -, -, hact⟩ := id hq
  have hd0 : s.inb.isEmpty = false := by simpa [Buffer.isEmpty] using hne
  have hseen : DeqRun.step .inbound true 1 ⟨[], .d0⟩ s.inb = (s.inb, .inl ⟨[], .d1⟩) := by
    simp only [DeqRun.step, hd0]
    rfl
  exact .start_read1 hq hb <| .x1_goes hact rfl <| .x1_goes hact rfl <| .x1_goes hact rfl <|
    .x1_goes hact hseen <| .x1_goes hact rfl <| .x1_goes hact rfl <| .x1_goes hact rfl <| .nil _

/-- What receiving `x` and serving it leaves outside `IN` (42_transport_interrupt.md R131). -/
def State.rxServed (s : State) (x : Byte) : State :=
  { s with
    per := { s.per with rxReady := false, rxData := x, rxErr := false }
    rxi := { inflight := none, result := some .nothing }
    issuer := .rxi }

/-- A byte is received and `RXIRQ` stores it, E0 to E4, while there is room. -/
theorem plays_receive_and_rxirq (x : Byte) (hb : s.booted = true) (hrxi : s.rxi.inflight = none)
    (hrx : s.per.rxReady = false) (hroom : s.inb.count ≠ s.inb.cap) :
    Plays [.receive x false, .issue .rxi (encode .rxirq)] s
      ((s.rxServed x).setBuf .inbound (s.inb.e1 x).e2.e3.e4) := by
  refine .cons (u := { s with per := { s.per with rxReady := true, rxData := x, rxErr := false } })
    (fun _ => (receive_next_iff ..).mpr ⟨hrx, rfl⟩) (.cons (fun rest => ?_) (.nil _))
  have hexec := State.RxReady.exec_rxirq_of_no_error
    (s := { s with per := { s.per with rxReady := true, rxData := x, rxErr := false }, issuer := .rxi, todo := rest })
    ⟨rfl, hb, hrxi, rfl⟩ rfl
  simp only [Buffer.enqLoop_one s.inb x hroom] at hexec
  exact hexec

/-- The foreground from D4 to its return: D4 clears the flag, whatever the count. -/
theorem plays_read1_from_d4 (x : Byte) (hact : s.active = []) :
    Plays (List.replicate 8 (.tick .fg)) (s.reading b (.x1 ⟨[], .d4 x⟩))
      ((s.setBuf .inbound b.d4).finish .fg (.byte (some x))) :=
  .x1_goes hact rfl <| .x1_goes hact rfl <| .x1_goes hact rfl <| .x1_goes hact rfl <| .x1_goes hact rfl <|
    .x1_returns hact rfl <| .x2_goes hact <| .x3_returns hact

/-! ## The race -/

/-- The schedule of R190: `READ1` up to D3, the activation that stores `x`, and the rest of the `READ1`. -/
def raceTape (x : Byte) : List Event :=
  (.start .fg (encode .read1) :: List.replicate 7 (.tick .fg)) ++
    ([.receive x false, .issue .rxi (encode .rxirq)] ++ List.replicate 8 (.tick .fg))

/-- `IN` after the race: D2 and D3 of the consumer, E1 to E4 of the producer, D4 of the consumer. -/
def Buffer.raced (b : Buffer) (x : Byte) : Buffer := (b.d2.d3.e1 x).e2.e3.e4.d4

/-- D3 and E3 cancel out, so `IN` is full by the count again. -/
theorem Buffer.count_raced (x : Byte) (hfull : b.count = b.cap) : (b.raced x).count = (b.raced x).cap := by
  have hpos : 0 < b.count := hfull ▸ b.cap_pos
  exact (Nat.sub_add_cancel hpos).trans hfull

/-- D4 comes last. -/
theorem Buffer.full_raced (x : Byte) : (b.raced x).full = false := rfl

/-- From every quiet state with `IN` full, at any capacity, the schedule is a run; the `READ1` returns the oldest byte,
read at D1, before the activation stores. -/
theorem plays_race (x : Byte) (hq : s.Quiet) (hb : s.booted = true) (hrx : s.per.rxReady = false)
    (hfull : s.inb.count = s.inb.cap) :
    Plays (raceTape x) s
      (((s.rxServed x).setBuf .inbound (s.inb.raced x)).finish .fg (.byte (some (s.inb.d1 .inbound)))) := by
  obtain ⟨-, hrxi, -, hact⟩ := id hq
  have hpos : 0 < s.inb.count := hfull ▸ s.inb.cap_pos
  have hroom : s.inb.d2.d3.count ≠ s.inb.d2.d3.cap := by
    simp only [Buffer.count_d3, Buffer.count_d2, Buffer.cap_d3, Buffer.cap_d2]
    omega
  have hserved := plays_receive_and_rxirq
    (s := ({ s with issuer := .fg } : State).reading s.inb.d2.d3 (.x1 ⟨[], .d4 (s.inb.d1 .inbound)⟩)) x hb hrxi hrx hroom
  have hend := plays_read1_from_d4 (s := s.rxServed x) (b := (s.inb.d2.d3.e1 x).e2.e3.e4) (s.inb.d1 .inbound) hact
  exact (plays_read1_to_d4 hq hb hpos.ne').append (hserved.append hend)

end

/-- The start of X1 at capacity 8: an assembled transport with `IN` full and its indices at slot 3, `OUT` empty. -/
def raceStart : State :=
  { State.reset with
    inb := { k := 3, mem := (List.range 8).map (·, 0x11#8), widx := 3, ridx := 3, count := 8, full := true }
    booted := true, initIn := true, initOut := true }

theorem raceStart_quiet : raceStart.Quiet := ⟨rfl, rfl, rfl, rfl⟩

/-- Full, every slot has been written; empty, none needs to have been. -/
theorem raceStart_instOk (f : Inst) : InstOk true (raceStart.buf f) none none := by
  refine ⟨?_, ?_, fun _ => ⟨?_, ?_, trivial, trivial⟩⟩
  · unfold Buffer.InRange; cases f <;> decide
  · unfold Buffer.StorageOk; cases f <;> decide
  · cases f <;> decide
  · cases f <;> decide

theorem raceStart_inv : raceStart.Inv :=
  .of_quiet raceStart_quiet (fun _ => ⟨rfl, rfl⟩) (fun f => by cases f <;> exact raceStart_instOk _) (fun _ _ => rfl)

/-- Settles O44: the race from the start of X1. -/
theorem fullFlagRaceIsARun : Obligations.FullFlagRaceIsARun := by
  have hrun := plays_race 0x22#8 raceStart_quiet rfl rfl rfl []
  rw [List.append_nil] at hrun
  exact ⟨raceStart, _, raceTape 0x22#8, raceStart_inv, raceStart_quiet, rfl, rfl, hrun, ⟨rfl, rfl, rfl, rfl⟩,
    Buffer.count_raced _ rfl, Buffer.full_raced _⟩

end Sys2Proof.Machine
end
